-- ==== Sys2Proof/Word.lean ====
section
/-! DEFINITION. The words and indexes the manual counts in (0.7 of 00_scope.md). -/

namespace Sys2Proof

/-- One byte of a frame; also a bus address, a kind code and the question register. -/
abbrev Byte := BitVec 8

/-- A temperature or temperature difference in sixteenths of a degree Celsius (0.7). -/
abbrev T16 := Int

/-- A zone number (R1). -/
abbrev ZoneIx := Fin 16

/-- A Node Table index (R155). -/
abbrev NodeIx := Fin 48

/-- A Level Table index (R19). -/
abbrev LevelIx := Fin 8

end Sys2Proof
end

