-- ==== Sys2Proof/Syntax.lean ====
section
/-! DEFINITION. The commands of the ZT-620, one constructor per row of spec/opcode_table.json. -/

namespace Sys2Proof

/-- One of the two bus segments (0.2). -/
inductive Segment where
  | room
  | plant
  deriving DecidableEq, Repr

/-- The order in which the four blocks that count minutes take one minute tick: the first of the
four, then the first of the remaining three, then of the remaining two (log 2). -/
structure TickOrder where
  first  : Fin 4
  second : Fin 3
  third  : Fin 2
  deriving DecidableEq, Repr

/-- What cut an arriving frame short (R132): the line became free before its last character, or a
character came with a dominant stop bit. -/
inductive FrameCut where
  | freeLine
  | dominantStop
  deriving DecidableEq, Repr

/-- A MGMT_REQUEST frame arriving on `seg`, less its operation code (11.2). -/
structure MgmtRequest where
  seg   : Segment
  dst   : Byte
  src   : Byte
  tag   : Byte
  table : Byte
  index : Byte
  data  : List Byte
  deriving DecidableEq, Repr

/-- The commands. A frame's payload is carried as bytes, so that every payload a node can send has
its command; its check byte is the one R133 computes (a frame with another is MALFORMED_FRAME). -/
inductive Instr where
  /-- COLD_RESET (R176): the levels of the two supply-good lines, and whether a commit under way
  had reached the store (R172). -/
  | coldReset (roomSupply plantSupply commitLanded : Bool)
  /-- WARM_RESET (R177), the management operation. -/
  | warmReset (q : MgmtRequest)
  /-- WARM_RESET_EFFECT (R177): the outstanding reply to WARM_RESET ends. -/
  | warmResetEffect
  /-- SEGMENT_NO_SUPPLY (R135). -/
  | segmentNoSupply (seg : Segment)
  /-- SEGMENT_STUCK (R136). -/
  | segmentStuck (seg : Segment)
  /-- SEGMENT_HEALTH_UP (R137). -/
  | segmentHealthUp (seg : Segment)
  /-- INCOMPLETE_FRAME (R132). -/
  | incompleteFrame (seg : Segment) (cut : FrameCut)
  /-- MALFORMED_FRAME (R133): the characters received. -/
  | malformedFrame (seg : Segment) (bytes : List Byte)
  /-- TIME_SET (R37). -/
  | timeSet (seg : Segment) (dst src : Byte) (payload : List Byte)
  /-- TEMP_REPORT (R14). -/
  | tempReport (seg : Segment) (dst src : Byte) (payload : List Byte)
  /-- SET_REQUEST (R45). -/
  | setRequest (seg : Segment) (dst src : Byte) (payload : List Byte)
  /-- VALVE_STATUS (R92). -/
  | valveStatus (seg : Segment) (dst src : Byte) (payload : List Byte)
  /-- BOILER_ANSWER (R126). -/
  | boilerAnswer (seg : Segment) (dst src : Byte) (payload : List Byte)
  /-- ROLL_ANSWER (R163). -/
  | rollAnswer (seg : Segment) (dst src : Byte) (payload : List Byte)
  /-- FOREIGN_FRAME (R144): a frame of any kind code that is handed to no block. -/
  | foreignFrame (seg : Segment) (dst src kind : Byte) (payload : List Byte)
  /-- READ_ENTRY (R169). -/
  | readEntry (q : MgmtRequest)
  /-- WRITE_ENTRY (R171). -/
  | writeEntry (q : MgmtRequest)
  /-- CLEAR_ENTRY (R171). -/
  | clearEntry (q : MgmtRequest)
  /-- READ_ZONE (R8). -/
  | readZone (q : MgmtRequest)
  /-- READ_PLANT (R169). -/
  | readPlant (q : MgmtRequest)
  /-- READ_SEGMENTS (R149). -/
  | readSegments (q : MgmtRequest)
  /-- FETCH_EVENTS (R179). -/
  | fetchEvents (q : MgmtRequest)
  /-- READ_NEWCOMERS (R166). -/
  | readNewcomers (q : MgmtRequest)
  /-- CLEAR_NEWCOMERS (R166). -/
  | clearNewcomers (q : MgmtRequest)
  /-- SET_MODE_RUN (R174): a SET_MODE request whose data does not name COMMISSION. -/
  | setModeRun (q : MgmtRequest)
  /-- SET_MODE_COMMISSION (R175): a SET_MODE request whose data names COMMISSION. -/
  | setModeCommission (q : MgmtRequest)
  /-- SET_HOLIDAY (R52). -/
  | setHoliday (q : MgmtRequest)
  /-- CANCEL_OVERRIDE (R50). -/
  | cancelOverride (q : MgmtRequest)
  /-- COMMIT_END (R172). -/
  | commitEnd
  /-- TRANSMIT_START (R151): the line of the segment is free. -/
  | transmitStart (seg : Segment)
  /-- LOST_ARBITRATION (R152): the bit, counted from the frame's first start bit, that was sent
  recessive and read dominant. -/
  | lostArbitration (seg : Segment) (bit : Nat)
  /-- TRANSMISSION_COMPLETE (R153). -/
  | transmissionComplete (seg : Segment)
  /-- MINUTE_TICK (R36). -/
  | minuteTick (order : TickOrder)
  /-- HOLIDAY_END (R53). -/
  | holidayEnd
  /-- TEMPORARY_OVERRIDE_END (R49). -/
  | temporaryOverrideEnd (zone : ZoneIx)
  /-- WINDOW_TIMER_RUN_OUT (R67). -/
  | windowTimerRunOut (zone : ZoneIx)
  /-- REGULATION_EVENT (R59). -/
  | regulationEvent (zone : ZoneIx)
  /-- MOTION_TIMEOUT (R91). -/
  | motionTimeout (node : NodeIx)
  /-- DEMAND_PERIOD_EXPIRY (R102). -/
  | demandPeriodExpiry
  /-- BURNER_TIMER_RUN_OUT (R109). -/
  | burnerTimerRunOut
  /-- OVERRUN_END (R111). -/
  | overrunEnd
  /-- ANSWER_WINDOW_OPEN_PART (R124). -/
  | answerWindowOpenPart
  /-- ANSWER_WINDOW_CLOSE (R124). -/
  | answerWindowClose
  /-- ROLL_CALL_EXPIRY (R161). -/
  | rollCallExpiry (seg : Segment)
  /-- ROLL_WINDOW_CLOSE (R164). -/
  | rollWindowClose (seg : Segment)
  /-- MGMT_REQUEST_BAD_OP (R169): a management request with an operation code of no operation. -/
  | mgmtRequestBadOp (q : MgmtRequest) (op : Byte)
  deriving DecidableEq, Repr

end Sys2Proof
end

