-- ==== Sys2Proof/Decode.lean ====
section
/-! DEFINITION. Decoding. The table of operations (spec/opcode_table.json) gives its rows no bits: a
command is an event outside the part, or a frame on a segment, and no word spells one (log 21). -/

namespace Sys2Proof

/-- The command a word spells by the table's bits: none, since no row of the table has any. -/
def decodeTableWord (_nbits _w : Nat) : Option Instr := none

end Sys2Proof
end

