-- ==== Sys2Proof/Config.lean ====
section
/-! DEFINITION. What the manual leaves to the world and no command shows: the free values. -/

namespace Sys2Proof.Config

/-- FREE VALUE (log 6). Whether the supply-good line of a segment that is NO_SUPPLY is high at the
moment of a warm reset: the line may have risen less than 50 ms before (R137), and no command of
the table reports that rise. The argument is `State.freeCount`, so each use is a fresh value. -/
opaque supplyLevel : Nat → Bool

end Sys2Proof.Config
end

