-- ==== Sys2Proof/Machine/Frames.lean ====
section
/-! DEFINITION. Frames on the line: the frame layout of 11.1, the check byte and the malformed test
of R133, and the line bits of R132. -/

namespace Sys2Proof.Machine

open Sys2Proof

/-- The segment on the other side of the part. -/
def otherSegment : Segment → Segment
  | .room => .plant
  | .plant => .room

/-- A frame as it stands on the line (11.1); LEN is the payload's length. -/
structure Frame where
  dst     : Byte
  src     : Byte
  kind    : Byte
  payload : List Byte
  chk     : Byte
  deriving DecidableEq, Repr

/-- One bit of the CRC-8 with generator x^8 + x^5 + x^3 + x^2 + x + 1 (R133). -/
def crcBit (c : Byte) : Byte :=
  if c.msb then (c <<< 1) ^^^ 0x2F#8 else c <<< 1

/-- One byte of the CRC-8, most significant bit first. -/
def crcByte (c b : Byte) : Byte :=
  crcBit (crcBit (crcBit (crcBit (crcBit (crcBit (crcBit (crcBit (c ^^^ b))))))))

/-- The CRC-8 of R133: initial value 0xFF, no final inversion. -/
def crc8 (bs : List Byte) : Byte :=
  bs.foldl crcByte 0xFF#8

/-- Bytes 0 to 3 + LEN: what CHK is computed over (11.1). -/
def frameBody (dst src kind : Byte) (payload : List Byte) : List Byte :=
  dst :: src :: kind :: BitVec.ofNat 8 payload.length :: payload

/-- A frame with the check byte R133 computes. -/
def mkFrame (dst src kind : Byte) (payload : List Byte) : Frame :=
  ⟨dst, src, kind, payload, crc8 (frameBody dst src kind payload)⟩

/-- The frame's characters in line order, CHK last (R132). -/
def Frame.bytes (f : Frame) : List Byte :=
  frameBody f.dst f.src f.kind f.payload ++ [f.chk]

/-- The ten bits of one character: dominant start bit, the byte most significant bit first,
recessive stop bit; a dominant bit is a 0, here `false` (R132). -/
def charBits (b : Byte) : List Bool :=
  [false, b.getLsbD 7, b.getLsbD 6, b.getLsbD 5, b.getLsbD 4, b.getLsbD 3, b.getLsbD 2,
    b.getLsbD 1, b.getLsbD 0, true]

/-- The line bits of a frame, from its first start bit (R132). -/
def Frame.lineBits (f : Frame) : List Bool :=
  f.bytes.flatMap charBits

/-- The malformed test of R133 on a complete frame. -/
def Frame.malformed (f : Frame) : Bool :=
  f.chk != crc8 (frameBody f.dst f.src f.kind f.payload)
    || decide (32 < f.payload.length)
    || f.kind == 0x00#8 || decide (0x40 ≤ f.kind.toNat)
    || f.src == 0x00#8 || decide (0x7F ≤ f.src.toNat)
    || decide (0x7F ≤ f.dst.toNat)

/-- The characters of a complete frame read back: none when their number is not 5 + LEN (R132). -/
def parseFrame : List Byte → Option Frame
  | dst :: src :: kind :: len :: rest =>
    match rest.getLast? with
    | some chk =>
      if rest.length = len.toNat + 1 then some ⟨dst, src, kind, rest.dropLast, chk⟩ else none
    | none => none
  | _ => none

end Sys2Proof.Machine
end

