-- ==== Sys2Proof/Machine/Tables.lean ====
section
/-! DEFINITION. The configuration tables: their entries and the defaults a blank Configuration
Store supplies (R2, R19, R21, R26, R145, R155, R171). -/

namespace Sys2Proof.Machine

open Sys2Proof

/-- The part's mode (R167). -/
inductive Mode where
  | commission
  | run
  deriving DecidableEq, Repr

/-- The role of a node (R155). -/
inductive Role where
  | sensor
  | roomUnit
  | actuator
  | boilerIf
  | manager
  | listener
  deriving DecidableEq, Repr

/-- The tap set of the question generator (R121). -/
inductive Polynomial where
  | polyA
  | polyB
  deriving DecidableEq, Repr

/-- A schedule reference (R24). -/
inductive SchedRef where
  | noRef
  | direct (p : Fin 64)
  | dayIndexed (p : Fin 64)
  | linked (l : Fin 16)
  | linkedDayIndexed (l : Fin 16)
  deriving DecidableEq, Repr

/-- A switch point: minute of day and level (R21). -/
structure SwitchPoint where
  minute : Nat
  level  : LevelIx
  deriving DecidableEq, Repr

/-- The SYSTEM table (R171). -/
structure SystemCfg where
  ownAddress   : Byte
  rollInterval : Nat
  deriving DecidableEq, Repr

/-- The configuration part of a Node Table entry (R155); address 0 marks the entry unused. -/
structure NodeCfg where
  address : Byte
  segment : Segment
  role    : Role
  zone    : Option ZoneIx
  intake  : Bool
  deriving DecidableEq, Repr

/-- The configuration part of a zone record (R2). -/
structure ZoneCfg where
  enabled         : Bool
  minLimit        : T16
  maxLimit        : T16
  defaultLevel    : LevelIx
  schedule        : SchedRef
  pb              : T16
  ti              : Nat
  period          : Nat
  sensorTimeout   : Nat
  blindDemand     : Nat
  floorLimit      : Option T16
  windowDetection : Bool
  windowDrop      : T16
  windowHold      : Nat
  holidayEligible : Bool
  overrunPath     : Bool
  deriving DecidableEq, Repr

/-- The PLANT table (R88, R101, R105, R106, R111, R120). -/
structure PlantCfg where
  demandPeriod   : Nat
  minOn          : Nat
  minOff         : Nat
  fireOn         : Nat
  fireOff        : Nat
  baseFlow       : T16
  maxFlow        : T16
  flowPathMin    : Nat
  overrunTime    : Nat
  driveLimit     : Nat
  deadband       : Nat
  motionTimeout  : Nat
  seed           : Byte
  polynomial     : Polynomial
  faultThreshold : Nat
  recoveryCount  : Nat
  deriving DecidableEq, Repr

/-- One Kind Map entry: the two forward-broadcast flags (R145). -/
structure KindFlags where
  roomToPlant : Bool
  plantToRoom : Bool
  deriving DecidableEq, Repr

/-- Every configuration table of the part. Kind Map entry k is held at position k - 1. -/
structure Tables where
  system   : SystemCfg
  nodes    : Vector NodeCfg 48
  zones    : Vector ZoneCfg 16
  levels   : Vector T16 8
  profiles : Vector (List SwitchPoint) 64
  links    : Vector SchedRef 16
  plant    : PlantCfg
  kindMap  : Vector KindFlags 63
  deriving DecidableEq, Repr

/-- R171: own address 0x7E, roll-call interval 5 minutes. -/
def SystemCfg.default : SystemCfg := ⟨0x7E#8, 5⟩

/-- R155: an unused entry. -/
def NodeCfg.default : NodeCfg := ⟨0x00#8, .room, .listener, none, false⟩

/-- R2, the default column. -/
def ZoneCfg.default : ZoneCfg where
  enabled := false
  minLimit := 80
  maxLimit := 480
  defaultLevel := 1
  schedule := .noRef
  pb := 32
  ti := 20
  period := 1
  sensorTimeout := 10
  blindDemand := 300
  floorLimit := none
  windowDetection := false
  windowDrop := 24
  windowHold := 15
  holidayEligible := true
  overrunPath := false

/-- R88, R101, R105, R106, R111, R120, the default columns. -/
def PlantCfg.default : PlantCfg where
  demandPeriod := 20
  minOn := 5
  minOff := 5
  fireOn := 150
  fireOff := 50
  baseFlow := 480
  maxFlow := 880
  flowPathMin := 25
  overrunTime := 3
  driveLimit := 4
  deadband := 5
  motionTimeout := 180
  seed := 0x5A#8
  polynomial := .polyA
  faultThreshold := 3
  recoveryCount := 4

/-- R19, the default column. -/
def levelDefault (i : LevelIx) : T16 :=
  match i.val with
  | 0 => 112
  | 1 => 256
  | 2 => 304
  | _ => 336

/-- R145: the default flags of a kind code. TIME_SET, MGMT_REQUEST and MGMT_REPLY cross, the other
known kinds stay on their segment, and foreign kinds cross. -/
def kindFlagsDefault (kind : Nat) : KindFlags :=
  if kind ∈ [0x02, 0x03, 0x08, 0x09, 0x0A, 0x10, 0x11, 0x14, 0x15] then ⟨false, false⟩
  else ⟨true, true⟩

/-- The tables a blank Configuration Store supplies (R172). -/
def Tables.default : Tables where
  system := SystemCfg.default
  nodes := Vector.replicate 48 NodeCfg.default
  zones := Vector.replicate 16 ZoneCfg.default
  levels := #v[112, 256, 304, 336, 336, 336, 336, 336]
  profiles := Vector.replicate 64 []
  links := Vector.replicate 16 .noRef
  plant := PlantCfg.default
  kindMap := Vector.ofFn (fun i : Fin 63 => kindFlagsDefault (i.val + 1))

/-- The entry is in use (R155). -/
def NodeCfg.used (c : NodeCfg) : Bool := c.address != 0x00#8

/-- The entry is a used ACTUATOR entry (R79). -/
def NodeCfg.isActuator (c : NodeCfg) : Bool := c.used && c.role == .actuator

/-- The entry is a used BOILER_IF entry. -/
def NodeCfg.isBoiler (c : NodeCfg) : Bool := c.used && c.role == .boilerIf

/-- The entry is a used SENSOR or ROOM_UNIT entry. -/
def NodeCfg.isThermal (c : NodeCfg) : Bool :=
  c.used && (c.role == .sensor || c.role == .roomUnit)

end Sys2Proof.Machine
end

