-- ==== Sys2Proof/Machine/State.lean ====
section
/-! DEFINITION. The state of the ZT-620 as plain data, the reasons a command can stop, and the
state after reset. Optional fields are the manual's own "none", "absent" and UNKNOWN (0.7). -/

namespace Sys2Proof.Machine

open Sys2Proof

/-- What stops the machine. The ZT-620 has nothing of the kind: every fault its manual describes is
state (log 22), so no command raises one. Safe. -/
inductive Fault where
  deriving DecidableEq, Repr

/-- Why a command has no meaning. -/
inductive Refusal where
  /-- Raised by an arm of `exec` for a command not modelled yet; safe. No arm raises it. -/
  | notModelled (mnemonic : String)
  deriving DecidableEq, Repr

/-- The regulation state of a zone (R60). -/
inductive RegState where
  | disabled
  | starting
  | normal
  | sensorLost
  | windowOpen
  | floorHold
  deriving DecidableEq, Repr

/-- Where an active setpoint came from (R42). -/
inductive Source where
  | override
  | holiday
  | schedule
  | default
  | fallback
  deriving DecidableEq, Repr

/-- A schedule fault kind; "none" is the absence of one (R32). -/
inductive SchedFault where
  | chainTooDeep
  | range
  | emptyProfile
  deriving DecidableEq, Repr

/-- An override's kind with its kind-specific field (R44). -/
inductive OverrideKind where
  | temporary (minutes : Nat)
  | untilNext (placement : LevelIx)
  | permanent
  deriving DecidableEq, Repr

/-- A present override record (R44). -/
structure Override where
  kind     : OverrideKind
  setpoint : T16
  deriving DecidableEq, Repr

/-- A sensor slot (R11). -/
structure Slot where
  bound      : Option NodeIx
  air        : Option T16
  floor      : Option T16
  batteryLow : Bool
  age        : Option Nat
  valid      : Bool
  deriving DecidableEq, Repr

/-- The runtime part of a zone record (R8), with the zone valve target of R82. -/
structure ZoneRt where
  reg          : RegState
  setpoint     : T16
  source       : Source
  schedLevel   : Option LevelIx
  schedFault   : Option SchedFault
  override     : Option Override
  zoneTemp     : Option T16
  floorTemp    : Option T16
  demand       : Nat
  integral     : Nat
  prevTemp     : Option T16
  windowTimer  : Option Nat
  periodTimer  : Option Nat
  slot0        : Slot
  slot1        : Slot
  valveTarget  : Nat
  deriving DecidableEq, Repr

/-- Why a node is in MISMATCH (R158). -/
inductive MismatchCause where
  | segment
  | role
  deriving DecidableEq, Repr

/-- The presence of a node, with the mismatch cause (R158). -/
inductive Presence where
  | unknown
  | present
  | absent
  | mismatch (cause : MismatchCause)
  deriving DecidableEq, Repr

/-- The motion of an actuator (R79). -/
inductive Motion where
  | idle
  | queued
  | moving
  deriving DecidableEq, Repr

/-- The fault of an actuator; "none" is the absence of one (R79). -/
inductive ValveFault where
  | blocked
  | noCompletion
  deriving DecidableEq, Repr

/-- The actuator fields of a node entry (R79). `lastIssue` is the model's own: the number of the
VALVE_CMD most recently issued to the actuator while it holds its slot (log 10). -/
structure Actuator where
  lastCmd   : Option Nat
  pending   : Option Nat
  confirmed : Option Nat
  motion    : Motion
  timer     : Option Nat
  fault     : Option ValveFault
  lastIssue : Option Nat
  deriving DecidableEq, Repr

/-- The runtime fields of a node entry: presence (R158) and actuator fields (R79). -/
structure NodeRt where
  presence  : Presence
  missCount : Nat
  seen      : Bool
  act       : Actuator
  deriving DecidableEq, Repr

/-- The Week Clock (R35). -/
structure Clock where
  minute : Nat
  valid  : Bool
  deriving DecidableEq, Repr

/-- The holiday record (R51). -/
structure Holiday where
  active  : Bool
  level   : LevelIx
  minutes : Nat
  deriving DecidableEq, Repr

/-- Segment health (R134). -/
inductive Health where
  | up
  | noSupply
  | stuck
  deriving DecidableEq, Repr

/-- A management result code (11.3). -/
inductive Result where
  | done
  | noData
  | badOp
  | badTable
  | badIndex
  | badValue
  | wrongMode
  | denied
  | configInvalid
  deriving DecidableEq, Repr

/-- What a frame the part originates says (11.2). A VALVE_CMD carries, beside its payload, the node
entry it was issued for and its issue number, which the frame on the line does not show (log 10). -/
inductive OwnMsg where
  | zoneNotice (zone : ZoneIx) (setpoint : T16) (source : Source) (temp : Option T16)
  | valveCmd (node : NodeIx) (issue : Nat) (target : Nat)
  | boilerDemand (flow : T16) (release pump : Bool) (question : Byte)
  | rollCall (group : Fin 8)
  | mgmtReply (tag op : Byte) (result : Result) (data : List Byte)
  deriving DecidableEq, Repr

/-- A frame the part originates (R148), with the source address it was built with (R171). -/
structure OwnFrame where
  dst : Byte
  src : Byte
  msg : OwnMsg
  deriving DecidableEq, Repr

/-- A frame chosen by the transmit arbiter: an own frame or a forwarded one (R151). -/
inductive TxFrame where
  | own (f : OwnFrame)
  | forwarded (f : Frame)
  deriving DecidableEq, Repr

/-- The frame in transmission; `held` while it waits for retry after a lost arbitration (R150). -/
structure Tx where
  frame : TxFrame
  held  : Bool
  deriving DecidableEq, Repr

/-- The receiver of a segment interface (R132): waiting for the line to become free, ready for a
frame's first start bit, or holding the line bits of the frame being received. -/
inductive Rx where
  | waitFree
  | lineFree
  | receiving (bits : List Bool)
  deriving DecidableEq, Repr

/-- The roll phase (R160). -/
inductive RollPhase where
  | idle
  | calling
  | window
  deriving DecidableEq, Repr

/-- The Roll Call Controller's fields for one segment (R160). -/
structure Roll where
  pointer  : Fin 8
  interval : Nat
  phase    : RollPhase
  group    : Option (Fin 8)
  deriving DecidableEq, Repr

/-- One segment: its interface (R134, R150), the own-frame queue and the forward queue bound for it
(R146), the overflow flag of the forwarding direction into it (R149) and its roll call (R160). -/
structure SegState where
  health      : Health
  rx          : Rx
  tx          : Option Tx
  own         : List OwnFrame
  fwd         : List Frame
  fwdOverflow : Bool
  roll        : Roll
  deriving DecidableEq, Repr

/-- A Drive Queue entry (R86). -/
structure DriveEntry where
  node   : NodeIx
  target : Nat
  deriving DecidableEq, Repr

/-- The pump state (R99). -/
inductive Pump where
  | off
  | on
  | overrun
  deriving DecidableEq, Repr

/-- The Plant Coordinator (R99). -/
structure Coordinator where
  burnerOn       : Bool
  burnerTimer    : Nat
  pump           : Pump
  overrunTimer   : Option Nat
  demandTimer    : Option Nat
  flowPathOpen   : Bool
  openDemand     : Nat
  lastFlow       : T16
  plantAvailable : Bool
  deriving DecidableEq, Repr

/-- The plant state (R118); `noBoiler` is NONE. -/
inductive PlantState where
  | noBoiler
  | sync
  | ok
  | fault
  deriving DecidableEq, Repr

/-- A boiler status; UNKNOWN is the absence of one (R118). -/
inductive BoilerStatus where
  | ready
  | firing
  | lockout
  | hotWater
  deriving DecidableEq, Repr

/-- A fault charged to the boiler interface (R129). -/
inductive LinkFault where
  | early
  | bad
  | missed
  deriving DecidableEq, Repr

/-- The two parts of the answer window (R124). -/
inductive WindowPart where
  | closedPart
  | openPart
  deriving DecidableEq, Repr

/-- An open answer window: its phase and its record (R123). No window is phase NO_WINDOW. -/
structure Window where
  part    : WindowPart
  flow    : T16
  release : Bool
  judged  : Bool
  deriving DecidableEq, Repr

/-- The Plant Link Supervisor (R118). -/
structure Supervisor where
  plantState : PlantState
  question   : Byte
  errors     : Nat
  good       : Nat
  window     : Option Window
  status     : Option BoilerStatus
  actualFlow : Option T16
  deriving DecidableEq, Repr

/-- The subject a failed configuration check names (R173). -/
inductive CheckSubject where
  | zone (z : ZoneIx)
  | node (address : Byte)
  | nothing
  deriving DecidableEq, Repr

/-- A failed configuration check: its number, 1 to 6, and its subject (R173). -/
structure CheckFailure where
  check   : Nat
  subject : CheckSubject
  deriving DecidableEq, Repr

/-- What an event says: kind, subject and detail (10.7). -/
inductive EventBody where
  | sensorLost (zone : ZoneIx) (left : RegState)
  | sensorBack (zone : ZoneIx) (slot : Fin 2)
  | scheduleFault (zone : ZoneIx) (kind : SchedFault)
  | valveFault (address : Byte) (fault : ValveFault)
  | nodeAbsent (address : Byte) (left : Presence)
  | nodeBack (address : Byte) (seg : Segment)
  | nodeMismatch (address : Byte) (cause : MismatchCause)
  | plantFault (fault : LinkFault)
  | plantOk (good : Nat)
  | boilerLockout (address : Byte) (before : Option BoilerStatus)
  | segmentDown (seg : Segment) (entered : Health)
  | segmentUp (seg : Segment) (left : Health)
  | configInvalid (failure : CheckFailure)
  | modeChanged (mode : Mode)
  deriving DecidableEq, Repr

/-- An event record; the stamp is none while the clock is invalid (R178). -/
structure Event where
  body  : EventBody
  stamp : Option Nat
  deriving DecidableEq, Repr

/-- What a commit writes to the store (R172). -/
inductive CommitItem where
  | system
  | node (i : NodeIx)
  | zone (i : ZoneIx)
  | level (i : LevelIx)
  | profile (i : Fin 64)
  | link (i : Fin 16)
  | plant
  | kindMap (i : Fin 63)
  | mode
  deriving DecidableEq, Repr

/-- The phase of an outstanding reply; COMMITTING holds what is being committed (R167, R172). -/
inductive ReplyPhase where
  | committing (item : CommitItem)
  | placed
  deriving DecidableEq, Repr

/-- What a FETCH_EVENTS reply carried (R179). -/
structure FetchInfo where
  count        : Nat
  flagReported : Bool
  deriving DecidableEq, Repr

/-- The outstanding reply and its record (R167). -/
structure Reply where
  phase     : ReplyPhase
  requester : Byte
  seg       : Segment
  tag       : Byte
  op        : Byte
  result    : Result
  data      : List Byte
  fetch     : Option FetchInfo
  deriving DecidableEq, Repr

/-- The Management Responder's fields, the mode apart (R167). -/
structure Responder where
  outstanding      : Option Reply
  lateOverflow     : Bool
  warmResetPending : Bool
  events           : List Event
  eventOverflow    : Bool
  attn             : Bool
  deriving DecidableEq, Repr

/-- The state of the ZT-620 and the queue of commands waiting for it. `freeCount` and `nextIssue`
are the model's own (logs 6 and 10). -/
structure State where
  work              : Tables
  store             : Tables
  storedMode        : Mode
  mode              : Mode
  zones             : Vector ZoneRt 16
  nodes             : Vector NodeRt 48
  clock             : Clock
  holiday           : Holiday
  runEntryAge       : Nat
  room              : SegState
  plant             : SegState
  newcomers         : List Byte
  newcomerOverflow  : Bool
  driveQueue        : List DriveEntry
  nextIssue         : Nat
  pco               : Coordinator
  pls               : Supervisor
  mrs               : Responder
  freeCount         : Nat
  pending           : List Instr
  deriving DecidableEq, Repr

/-- An unbound slot (R11). -/
def Slot.unbound : Slot := ⟨none, none, none, false, none, false⟩

/-- A slot just bound to a node (R12). -/
def Slot.boundTo (i : NodeIx) : Slot := ⟨some i, none, none, false, none, false⟩

/-- The actuator fields after reset (R80). -/
def Actuator.reset : Actuator := ⟨none, none, none, .idle, none, none, none⟩

/-- The node fields after reset (R158, R80). -/
def NodeRt.reset : NodeRt := ⟨.unknown, 0, false, Actuator.reset⟩

/-- A DISABLED zone after a cold reset (R9), with the setpoint R10 gives a disabled zone of the
default configuration: its minimum limit, source DEFAULT. -/
def ZoneRt.reset : ZoneRt where
  reg := .disabled
  setpoint := 80
  source := .default
  schedLevel := none
  schedFault := none
  override := none
  zoneTemp := none
  floorTemp := none
  demand := 0
  integral := 0
  prevTemp := none
  windowTimer := none
  periodTimer := none
  slot0 := Slot.unbound
  slot1 := Slot.unbound
  valveTarget := 0

/-- The roll call of a segment after reset (R160). -/
def Roll.reset (interval : Nat) : Roll := ⟨0, interval, .idle, none⟩

/-- A segment after reset, its health as its supply-good line gives it (R134, R146, R149). -/
def SegState.reset (health : Health) (interval : Nat) : SegState :=
  ⟨health, .waitFree, none, [], [], false, Roll.reset interval⟩

/-- R51: the holiday record after a cold reset. -/
def Holiday.inactive : Holiday := ⟨false, 0, 0⟩

/-- R167: the Management Responder after reset. -/
def Responder.reset : Responder := ⟨none, false, false, [], false, false⟩

/-- The machine right after the cold reset of a new part: a blank Configuration Store gives mode
COMMISSION, own address 0x7E and the default of every table (R172, R176). Both supply-good lines
are taken as high (log 4). -/
def State.reset : State where
  work := Tables.default
  store := Tables.default
  storedMode := .commission
  mode := .commission
  zones := Vector.replicate 16 ZoneRt.reset
  nodes := Vector.replicate 48 NodeRt.reset
  clock := ⟨0, false⟩
  holiday := Holiday.inactive
  runEntryAge := 0
  room := SegState.reset .up 5
  plant := SegState.reset .up 5
  newcomers := []
  newcomerOverflow := false
  driveQueue := []
  nextIssue := 0
  pco := ⟨false, 5, .off, none, none, false, 0, 0, true⟩
  pls := ⟨.noBoiler, 0x5A#8, 0, 0, none, none, none⟩
  mrs := Responder.reset
  freeCount := 0
  pending := []

end Sys2Proof.Machine
end

