-- ==== Sys2Proof/Machine/Ops.lean ====
section
/-! DEFINITION. The named operations over the state: records, the Event Queue, the own-frame and
forward queues, and look-ups in the Node Table. -/

namespace Sys2Proof.Machine

open Sys2Proof

/-! ### Records by index -/

/-- The zone numbers in rising order (R39). -/
def allZones : List ZoneIx := List.finRange 16

/-- The node-table indexes in rising order. -/
def allNodes : List NodeIx := List.finRange 48

/-- The runtime record of zone z. -/
def State.zone (s : State) (z : ZoneIx) : ZoneRt := s.zones[z]

/-- The configuration of zone z, from the working copy. -/
def State.zoneCfg (s : State) (z : ZoneIx) : ZoneCfg := s.work.zones[z]

/-- The runtime fields of node entry i. -/
def State.node (s : State) (i : NodeIx) : NodeRt := s.nodes[i]

/-- The configuration of node entry i, from the working copy. -/
def State.nodeCfg (s : State) (i : NodeIx) : NodeCfg := s.work.nodes[i]

/-- The state of a segment. -/
def State.seg (s : State) : Segment → SegState
  | .room => s.room
  | .plant => s.plant

/-- Replace zone z's runtime record. -/
def State.setZone (s : State) (z : ZoneIx) (v : ZoneRt) : State :=
  { s with zones := s.zones.set z.val v z.isLt }

/-- Replace node entry i's runtime fields. -/
def State.setNode (s : State) (i : NodeIx) (v : NodeRt) : State :=
  { s with nodes := s.nodes.set i.val v i.isLt }

/-- Replace the actuator fields of node entry i. -/
def State.setAct (s : State) (i : NodeIx) (a : Actuator) : State :=
  s.setNode i { s.node i with act := a }

/-- Replace the state of a segment. -/
def State.setSeg (s : State) (x : Segment) (v : SegState) : State :=
  match x with
  | .room => { s with room := v }
  | .plant => { s with plant := v }

/-- Replace the Drive Queue. -/
def State.setDrive (s : State) (q : List DriveEntry) : State := { s with driveQueue := q }

/-- Replace the Plant Coordinator's fields. -/
def State.setPco (s : State) (p : Coordinator) : State := { s with pco := p }

/-- Replace the Plant Link Supervisor's fields. -/
def State.setPls (s : State) (p : Supervisor) : State := { s with pls := p }

/-- Replace the Management Responder's fields. -/
def State.setMrs (s : State) (m : Responder) : State := { s with mrs := m }

/-- Replace the working copy of the tables. -/
def State.setWork (s : State) (t : Tables) : State := { s with work := t }

/-- Replace the Week Clock. -/
def State.setClock (s : State) (c : Clock) : State := { s with clock := c }

/-- Replace the holiday record. -/
def State.setHoliday (s : State) (h : Holiday) : State := { s with holiday := h }

/-- Replace the queue of waiting commands. -/
def State.setPending (s : State) (q : List Instr) : State := { s with pending := q }

/-- The part's own address (R171). -/
def State.ownAddress (s : State) : Byte := s.work.system.ownAddress

/-! ### Arithmetic -/

/-- Clamping to lo..hi (0.7): lo below it, hi above it. -/
def clamp (lo hi x : Int) : Int :=
  if x < lo then lo else if hi < x then hi else x

/-- The distance between two percentages. -/
def distance (a b : Nat) : Nat := (a - b) + (b - a)

/-- The group of sixteen addresses an address lies in (R160). -/
def groupOf (a : Byte) : Nat := a.toNat / 16

/-! ### Node Table look-ups -/

/-- The entry that holds an address; address 0 names none (R155). -/
def findNode (s : State) (a : Byte) : Option NodeIx :=
  allNodes.find? (fun i => (s.nodeCfg i).used && (s.nodeCfg i).address == a)

/-- The first BOILER_IF entry. -/
def findBoiler (s : State) : Option NodeIx :=
  allNodes.find? (fun i => (s.nodeCfg i).isBoiler)

/-- The Node Table holds an entry whose role is BOILER_IF (R101, R119). -/
def hasBoiler (s : State) : Bool := (findBoiler s).isSome

/-! ### The Event Queue (R178, R180) -/

/-- The stamp of an event: the week-minute, or none while the clock is invalid. -/
def Clock.stamp (c : Clock) : Option Nat := if c.valid then some c.minute else none

/-- A FETCH_EVENTS reply is outstanding (log 17). -/
def Responder.fetching (m : Responder) : Bool :=
  match m.outstanding with
  | some r => r.fetch.isSome
  | none => false

/-- An event is raised (R178): it joins the tail of the queue, and ATTN is high (R180); with sixteen
records waiting it is discarded and the event-overflow flag is set. -/
def addEvent (b : EventBody) (s : State) : State :=
  if s.mrs.events.length < 16 then
    s.setMrs { s.mrs with events := s.mrs.events ++ [⟨b, s.clock.stamp⟩], attn := true }
  else
    s.setMrs { s.mrs with
      eventOverflow := true
      lateOverflow := s.mrs.lateOverflow || s.mrs.fetching }

/-! ### The queues (R146 to R149) -/

/-- The own-frame queue of a segment takes a frame (R148). -/
def ownRoom (s : State) (x : Segment) : Bool :=
  (s.seg x).health != .noSupply && decide ((s.seg x).own.length < 8)

/-- A frame joins the tail of an own-frame queue. -/
def pushOwn (x : Segment) (f : OwnFrame) (s : State) : State :=
  s.setSeg x { s.seg x with own := (s.seg x).own ++ [f] }

/-- A frame is offered to an own-frame queue; refused when there is no room (R148). -/
def offerOwn (x : Segment) (f : OwnFrame) (s : State) : State :=
  if ownRoom s x then pushOwn x f s else s

/-- The message is a BOILER_DEMAND. -/
def OwnMsg.isDemand : OwnMsg → Bool
  | .boilerDemand .. => true
  | _ => false

/-- The new BOILER_DEMAND takes the place of the first waiting one (R114, R148). -/
def replaceDemand (f : OwnFrame) : List OwnFrame → List OwnFrame
  | [] => []
  | g :: gs => if g.msg.isDemand then f :: gs else g :: replaceDemand f gs

/-- A BOILER_DEMAND is offered to OQ-P: it replaces one that waits there unstarted, and otherwise
joins as any own frame does (R114, R148). -/
def offerDemand (f : OwnFrame) (s : State) : State :=
  if (s.seg .plant).own.any (fun g => g.msg.isDemand) then
    s.setSeg .plant { s.seg .plant with own := replaceDemand f (s.seg .plant).own }
  else offerOwn .plant f s

/-- A frame is offered to the forward queue bound for segment y: dropped, with the overflow flag of
that direction set, when y is NO_SUPPLY or the queue holds eight frames (R147). -/
def offerForward (y : Segment) (f : Frame) (s : State) : State :=
  if (s.seg y).health != .noSupply && decide ((s.seg y).fwd.length < 8) then
    s.setSeg y { s.seg y with fwd := (s.seg y).fwd ++ [f] }
  else s.setSeg y { s.seg y with fwdOverflow := true }

/-! ### Folds over the tables -/

/-- Apply an operation for every zone in rising order. -/
def forZones (f : ZoneIx → State → State) (s : State) : State :=
  allZones.foldl (fun s z => f z s) s

/-- Apply an operation for every node entry in rising order. -/
def forNodes (f : NodeIx → State → State) (s : State) : State :=
  allNodes.foldl (fun s i => f i s) s

end Sys2Proof.Machine
end

