-- ==== Sys2Proof/Machine/Operands.lean ====
section
/-! DEFINITION. The wire formats of Chapter 11: byte fields, codes, frame payloads, table entries and
runtime records, in both directions. -/

namespace Sys2Proof.Machine

open Sys2Proof

/-! ### Fields (R181, R182) -/

/-- A one-byte number; values of the part's own fields fit (log 25). -/
def byteOf (n : Nat) : Byte := BitVec.ofNat 8 n

/-- A boolean byte: 0 or 1 (11.3). -/
def boolByte (b : Bool) : Byte := if b then 1#8 else 0#8

/-- A two-byte unsigned number, high byte first. -/
def u16 (n : Nat) : List Byte := [byteOf (n / 256), byteOf n]

/-- A T16 value: two's complement, high byte first. -/
def t16 (t : T16) : List Byte :=
  [(BitVec.ofInt 16 t).extractLsb' 8 8, (BitVec.ofInt 16 t).extractLsb' 0 8]

/-- A temperature or none: 0x8000 for none (11.2). -/
def t16Opt : Option T16 → List Byte
  | some t => t16 t
  | none => [0x80#8, 0x00#8]

/-- A one-byte number or 0xFF for none, absent, unbound or UNKNOWN (11.3). -/
def byteOpt : Option Nat → Byte
  | some n => byteOf n
  | none => 0xFF#8

/-- A two-byte count of minutes or seconds or 0xFFFF (11.3). -/
def u16Opt : Option Nat → List Byte
  | some n => u16 n
  | none => [0xFF#8, 0xFF#8]

/-- Read a two-byte unsigned number. -/
def rdU16 (hi lo : Byte) : Nat := hi.toNat * 256 + lo.toNat

/-- Read a T16 value. -/
def rdT16 (hi lo : Byte) : T16 := (hi ++ lo).toInt

/-- A T16 value the part accepts from a sensor: -640 to 1600 (0.7, R14). -/
def t16InRange (t : T16) : Bool := decide (-640 ≤ t) && decide (t ≤ 1600)

/-- A boolean byte read back: none when it is neither 0 nor 1 (R183). -/
def rdBool (b : Byte) : Option Bool :=
  if b = 0#8 then some false else if b = 1#8 then some true else none

/-- A number below n, or none. -/
def rdFin (n : Nat) (b : Nat) : Option (Fin n) :=
  if h : b < n then some ⟨b, h⟩ else none

/-- A number in lo..hi, or none. -/
def rdRange (lo hi n : Nat) : Option Nat :=
  if lo ≤ n && n ≤ hi then some n else none

/-- A T16 in lo..hi, or none. -/
def rdT16Range (lo hi t : T16) : Option T16 :=
  if decide (lo ≤ t) && decide (t ≤ hi) then some t else none

/-! ### Codes (11.3) -/

/-- Role code. -/
def roleCode : Role → Byte
  | .sensor => 1
  | .roomUnit => 2
  | .actuator => 3
  | .boilerIf => 4
  | .manager => 5
  | .listener => 6

/-- The role of a code; none for a code of no role. -/
def rdRole (b : Byte) : Option Role :=
  [Role.sensor, .roomUnit, .actuator, .boilerIf, .manager, .listener].find? (fun r => roleCode r == b)

/-- Segment code. -/
def segmentCode : Segment → Byte
  | .room => 0
  | .plant => 1

/-- The segment of a code. -/
def rdSegment (b : Byte) : Option Segment :=
  if b = 0#8 then some .room else if b = 1#8 then some .plant else none

/-- Setpoint source code. -/
def sourceCode : Source → Byte
  | .override => 1
  | .holiday => 2
  | .schedule => 3
  | .default => 4
  | .fallback => 5

/-- Regulation state code. -/
def regCode : RegState → Byte
  | .disabled => 0
  | .starting => 1
  | .normal => 2
  | .sensorLost => 3
  | .windowOpen => 4
  | .floorHold => 5

/-- Schedule fault kind code; none is 0. -/
def schedFaultCode : Option SchedFault → Byte
  | none => 0
  | some .chainTooDeep => 1
  | some .range => 2
  | some .emptyProfile => 3

/-- Schedule reference kind and target; a NONE reference is returned with target 0 (R25). -/
def schedRefBytes : SchedRef → List Byte
  | .noRef => [0, 0]
  | .direct p => [1, byteOf p.val]
  | .dayIndexed p => [2, byteOf p.val]
  | .linked l => [3, byteOf l.val]
  | .linkedDayIndexed l => [4, byteOf l.val]

/-- The check of R25 on a schedule reference; the target of NONE is disregarded. -/
def rdSchedRef (kind target : Byte) : Option SchedRef :=
  match kind.toNat with
  | 0 => some .noRef
  | 1 => (rdFin 64 target.toNat).map .direct
  | 2 => (rdFin 64 target.toNat).map .dayIndexed
  | 3 => (rdFin 16 target.toNat).map .linked
  | 4 => (rdFin 16 target.toNat).map .linkedDayIndexed
  | _ => none

/-- Actuator motion code. -/
def motionCode : Motion → Byte
  | .idle => 0
  | .queued => 1
  | .moving => 2

/-- Actuator fault code; none is 0. -/
def valveFaultCode : Option ValveFault → Byte
  | none => 0
  | some .blocked => 1
  | some .noCompletion => 2

/-- Presence code. -/
def presenceCode : Presence → Byte
  | .unknown => 0
  | .present => 1
  | .absent => 2
  | .mismatch _ => 3

/-- Mismatch cause code. -/
def causeCode : MismatchCause → Byte
  | .segment => 1
  | .role => 2

/-- The mismatch cause of a presence: none in every presence but MISMATCH (R158). -/
def presenceCauseCode : Presence → Byte
  | .mismatch c => causeCode c
  | _ => 0

/-- Boiler status code; UNKNOWN is 0. -/
def statusCode : Option BoilerStatus → Byte
  | none => 0
  | some .ready => 1
  | some .firing => 2
  | some .lockout => 3
  | some .hotWater => 4

/-- The boiler status of a code; UNKNOWN in a frame is no status (R125). -/
def rdStatus (b : Byte) : Option BoilerStatus :=
  [BoilerStatus.ready, .firing, .lockout, .hotWater].find? (fun r => statusCode (some r) == b)

/-- Plant state code. -/
def plantStateCode : PlantState → Byte
  | .noBoiler => 0
  | .sync => 1
  | .ok => 2
  | .fault => 3

/-- Window phase code; no window is 0. -/
def windowCode : Option Window → Byte
  | none => 0
  | some w => match w.part with
    | .closedPart => 1
    | .openPart => 2

/-- Code of a judged fault. -/
def linkFaultCode : LinkFault → Byte
  | .early => 1
  | .bad => 2
  | .missed => 3

/-- Pump code. -/
def pumpCode : Pump → Byte
  | .off => 0
  | .on => 1
  | .overrun => 2

/-- Segment health code. -/
def healthCode : Health → Byte
  | .up => 0
  | .noSupply => 1
  | .stuck => 2

/-- Mode code. -/
def modeCode : Mode → Byte
  | .commission => 0
  | .run => 1

/-- The mode of a code. -/
def rdMode (b : Byte) : Option Mode :=
  if b = 0#8 then some .commission else if b = 1#8 then some .run else none

/-- Polynomial code. -/
def polyCode : Polynomial → Byte
  | .polyA => 0
  | .polyB => 1

/-- The polynomial of a code. -/
def rdPoly (b : Byte) : Option Polynomial :=
  if b = 0#8 then some .polyA else if b = 1#8 then some .polyB else none

/-- Result code. -/
def resultCode : Result → Byte
  | .done => 0
  | .noData => 1
  | .badOp => 2
  | .badTable => 3
  | .badIndex => 4
  | .badValue => 5
  | .wrongMode => 6
  | .denied => 7
  | .configInvalid => 8

/-- The management operations (R169). -/
inductive Operation where
  | readEntry
  | writeEntry
  | clearEntry
  | readZone
  | readPlant
  | readSegments
  | fetchEvents
  | readNewcomers
  | clearNewcomers
  | setMode
  | setHoliday
  | cancelOverride
  | warmReset
  deriving DecidableEq, Repr

/-- Operation code. -/
def opCode : Operation → Byte
  | .readEntry => 0x01
  | .writeEntry => 0x02
  | .clearEntry => 0x03
  | .readZone => 0x04
  | .readPlant => 0x05
  | .readSegments => 0x06
  | .fetchEvents => 0x07
  | .readNewcomers => 0x08
  | .clearNewcomers => 0x09
  | .setMode => 0x0A
  | .setHoliday => 0x0B
  | .cancelOverride => 0x0C
  | .warmReset => 0x0D

/-- The operation of a code; none is BAD_OP (R169). -/
def rdOp (b : Byte) : Option Operation :=
  [Operation.readEntry, .writeEntry, .clearEntry, .readZone, .readPlant, .readSegments,
    .fetchEvents, .readNewcomers, .clearNewcomers, .setMode, .setHoliday, .cancelOverride,
    .warmReset].find? (fun o => opCode o == b)

/-- The tables a request may name (R169). -/
inductive TableId where
  | system
  | node
  | zone
  | level
  | profile
  | link
  | plant
  | kindMap
  deriving DecidableEq, Repr

/-- Table code. -/
def tableCode : TableId → Byte
  | .system => 1
  | .node => 2
  | .zone => 3
  | .level => 4
  | .profile => 5
  | .link => 6
  | .plant => 7
  | .kindMap => 8

/-- The table of a code; none is BAD_TABLE (R169). -/
def rdTable (b : Byte) : Option TableId :=
  [TableId.system, .node, .zone, .level, .profile, .link, .plant, .kindMap].find?
    (fun t => tableCode t == b)

/-- An entry of a table, named by a request with an index in range: the item a write of it would
commit. None is BAD_INDEX (R169; R145 for the Kind Map). -/
def entryOf (t : TableId) (index : Byte) : Option CommitItem :=
  match t with
  | .system => if index = 0#8 then some .system else none
  | .node => (rdFin 48 index.toNat).map .node
  | .zone => (rdFin 16 index.toNat).map .zone
  | .level => (rdFin 8 index.toNat).map .level
  | .profile => (rdFin 64 index.toNat).map .profile
  | .link => (rdFin 16 index.toNat).map .link
  | .plant => if index = 0#8 then some .plant else none
  | .kindMap => if index = 0#8 then none else (rdFin 63 (index.toNat - 1)).map .kindMap

/-! ### Frame kinds (R140) -/

/-- The kinds the part knows, and all others. -/
inductive FrameKind where
  | timeSet
  | rollCall
  | rollAnswer
  | tempReport
  | setRequest
  | zoneNotice
  | valveCmd
  | valveStatus
  | boilerDemand
  | boilerAnswer
  | mgmtRequest
  | mgmtReply
  | foreign
  deriving DecidableEq, Repr

/-- The kind of a kind code (R140). -/
def rdKind (b : Byte) : FrameKind :=
  match b.toNat with
  | 0x01 => .timeSet
  | 0x02 => .rollCall
  | 0x03 => .rollAnswer
  | 0x08 => .tempReport
  | 0x09 => .setRequest
  | 0x0A => .zoneNotice
  | 0x10 => .valveCmd
  | 0x11 => .valveStatus
  | 0x14 => .boilerDemand
  | 0x15 => .boilerAnswer
  | 0x20 => .mgmtRequest
  | 0x21 => .mgmtReply
  | _ => .foreign

/-- The length check of R140. A SET_REQUEST with a defined override kind has that kind's length. -/
def lengthAllowed (k : FrameKind) (payload : List Byte) : Bool :=
  match k with
  | .timeSet => payload.length == 2
  | .rollCall => payload.length == 1
  | .rollAnswer => payload.length == 1
  | .tempReport => payload.length == 3 || payload.length == 5
  | .setRequest =>
    match payload with
    | [] => false
    | kind :: _ =>
      match kind.toNat with
      | 1 => payload.length == 5
      | 2 => payload.length == 3
      | 3 => payload.length == 3
      | 4 => payload.length == 1
      | _ => payload.length == 1 || payload.length == 3 || payload.length == 5
  | .zoneNotice => payload.length == 6
  | .valveCmd => payload.length == 1
  | .valveStatus => payload.length == 2
  | .boilerDemand => payload.length == 4
  | .boilerAnswer => payload.length == 5
  | .mgmtRequest => decide (4 ≤ payload.length) && decide (payload.length ≤ 32)
  | .mgmtReply => decide (3 ≤ payload.length) && decide (payload.length ≤ 32)
  | .foreign => true

/-! ### Payloads read (11.2) -/

/-- A TEMP_REPORT (R14, R15): air, the floor value where one is carried and wanted, battery-low. The
two floor bytes are not read while floor-present is clear. -/
structure TempReport where
  air        : T16
  floor      : Option T16
  batteryLow : Bool
  deriving DecidableEq, Repr

/-- Read a TEMP_REPORT payload; the floor reading is as R15 tables it. -/
def rdTempReport : List Byte → Option TempReport
  | [ah, al, fl] => some ⟨rdT16 ah al, none, fl.getLsbD 1⟩
  | [ah, al, fl, fh, fo] =>
    some ⟨rdT16 ah al,
      if fl.getLsbD 0 && t16InRange (rdT16 fh fo) then some (rdT16 fh fo) else none,
      fl.getLsbD 1⟩
  | _ => none

/-- A SET_REQUEST of a defined override kind (R45). -/
inductive OverrideRequest where
  | temporary (setpoint : T16) (duration : Nat)
  | untilNext (setpoint : T16)
  | permanent (setpoint : T16)
  | cancel
  deriving DecidableEq, Repr

/-- Read a SET_REQUEST payload; none for an undefined override kind. -/
def rdSetRequest : List Byte → Option OverrideRequest
  | [k] => if k = 4#8 then some .cancel else none
  | [k, sh, sl] =>
    if k = 2#8 then some (.untilNext (rdT16 sh sl))
    else if k = 3#8 then some (.permanent (rdT16 sh sl))
    else none
  | [k, sh, sl, dh, dl] =>
    if k = 1#8 then some (.temporary (rdT16 sh sl) (rdU16 dh dl)) else none
  | _ => none

/-- The motion an actuator reports (R92). -/
inductive ReportedMotion where
  | moving
  | atTarget
  | blocked
  deriving DecidableEq, Repr

/-- Read a reported motion code. -/
def rdReportedMotion (b : Byte) : Option ReportedMotion :=
  match b.toNat with
  | 1 => some .moving
  | 2 => some .atTarget
  | 3 => some .blocked
  | _ => none

/-! ### Frames the part builds (11.2) -/

/-- The kind code of an own frame. -/
def OwnMsg.kind : OwnMsg → Byte
  | .zoneNotice .. => 0x0A
  | .valveCmd .. => 0x10
  | .boilerDemand .. => 0x14
  | .rollCall _ => 0x02
  | .mgmtReply .. => 0x21

/-- The payload of an own frame. -/
def OwnMsg.payload : OwnMsg → List Byte
  | .zoneNotice z sp src t => byteOf z.val :: (t16 sp ++ [sourceCode src] ++ t16Opt t)
  | .valveCmd _ _ target => [byteOf target]
  | .boilerDemand flow release pump q =>
    t16 flow ++ [boolByte release ||| (boolByte pump <<< 1), q]
  | .rollCall g => [byteOf g.val]
  | .mgmtReply tag op result data => tag :: op :: resultCode result :: data

/-- An own frame as it goes on the line. -/
def OwnFrame.frame (f : OwnFrame) : Frame :=
  mkFrame f.dst f.src f.msg.kind f.msg.payload

/-- A frame in transmission as it goes on the line. -/
def TxFrame.frame : TxFrame → Frame
  | .own f => f.frame
  | .forwarded f => f

/-! ### Table entries read (11.5, R183) -/

/-- A SYSTEM entry; uniqueness of the address is checked by its writer (R171). -/
def rdSystem : List Byte → Option SystemCfg
  | [a, i] =>
    if 0x01 ≤ a.toNat && a.toNat ≤ 0x7E then
      (rdRange 1 60 i.toNat).map (fun n => ⟨a, n⟩)
    else none
  | _ => none

/-- The zone field of a node entry: a zone for SENSOR, ROOM_UNIT and ACTUATOR, none (0xFF) for the
other roles (R156). -/
def rdNodeZone (r : Role) (b : Byte) : Option (Option ZoneIx) :=
  match r with
  | .sensor => (rdFin 16 b.toNat).map some
  | .roomUnit => (rdFin 16 b.toNat).map some
  | .actuator => (rdFin 16 b.toNat).map some
  | .boilerIf => if b = 0xFF#8 then some none else none
  | .manager => if b = 0xFF#8 then some none else none
  | .listener => if b = 0xFF#8 then some none else none

/-- A NODE entry; address 0 is the default entry, whatever else it carries (R156). -/
def rdNode : List Byte → Option NodeCfg
  | [a, sg, r, z, i] =>
    if a = 0#8 then some NodeCfg.default
    else if 0x7E < a.toNat then none
    else do
      let sg ← rdSegment sg
      let r ← rdRole r
      let z ← rdNodeZone r z
      let i ← rdBool i
      some ⟨a, sg, r, z, i⟩
  | _ => none

/-- The floor limit: none (0x8000) or 320 to 560 (R2). -/
def rdFloorLimit (hi lo : Byte) : Option (Option T16) :=
  if rdT16 hi lo = -32768 then some none
  else (rdT16Range 320 560 (rdT16 hi lo)).map some

/-- A ZONE entry with every field in its range of R2. DESIGN CHOICE (log 31), unsafe: the Ti byte 0xFF is 255,
which R2 has in range, though R183 refuses the none value in a field without a none. -/
def rdZone : List Byte → Option ZoneCfg
  | [fl, mnh, mnl, mxh, mxl, lv, rk, rt, pb, ti, per, tmo, bh, bl, fh, flo, wd, wh] =>
    if fl.toNat < 16 then do
      let mn ← rdT16Range 80 320 (rdT16 mnh mnl)
      let mx ← rdT16Range mn 480 (rdT16 mxh mxl)
      let lv ← rdFin 8 lv.toNat
      let ref ← rdSchedRef rk rt
      let pb ← rdRange 8 128 pb.toNat
      let per ← rdRange 1 15 per.toNat
      let tmo ← rdRange 2 60 tmo.toNat
      let bd ← rdRange 0 1000 (rdU16 bh bl)
      let fl' ← rdFloorLimit fh flo
      let wd ← rdRange 8 64 wd.toNat
      let wh ← rdRange 5 60 wh.toNat
      some {
        enabled := fl.getLsbD 0
        minLimit := mn
        maxLimit := mx
        defaultLevel := lv
        schedule := ref
        pb := pb
        ti := ti.toNat
        period := per
        sensorTimeout := tmo
        blindDemand := bd
        floorLimit := fl'
        windowDetection := fl.getLsbD 1
        windowDrop := wd
        windowHold := wh
        holidayEligible := fl.getLsbD 2
        overrunPath := fl.getLsbD 3 }
    else none
  | _ => none

/-- A LEVEL entry: 80 to 480 (R20). -/
def rdLevel : List Byte → Option T16
  | [h, l] => rdT16Range 80 480 (rdT16 h l)
  | _ => none

/-- The switch points of a PROFILE entry, in bytes of three. -/
def rdPoints : List Byte → Option (List SwitchPoint)
  | [] => some []
  | mh :: ml :: lv :: rest => do
    let m ← rdRange 0 1439 (rdU16 mh ml)
    let lv ← rdFin 8 lv.toNat
    let ps ← rdPoints rest
    some (⟨m, lv⟩ :: ps)
  | _ => none

/-- The points are in strictly increasing minute order (R21). -/
def strictlyRising : List SwitchPoint → Bool
  | [] => true
  | [_] => true
  | p :: q :: ps => decide (p.minute < q.minute) && strictlyRising (q :: ps)

/-- A PROFILE entry: at most eight points, exactly as many as the count says, each in range and in
strictly increasing minute order (R22). -/
def rdProfile : List Byte → Option (List SwitchPoint)
  | n :: rest =>
    if n.toNat ≤ 8 && rest.length == 3 * n.toNat then
      match rdPoints rest with
      | some ps => if strictlyRising ps then some ps else none
      | none => none
    else none
  | [] => none

/-- A LINK entry (R26). -/
def rdLink : List Byte → Option SchedRef
  | [k, t] => rdSchedRef k t
  | _ => none

/-- A PLANT entry with every setting in its range (R88, R101, R105, R106, R111, R120). DESIGN CHOICE (log 31),
unsafe: the seed byte 0xFF is 255, which R120 has in range, though R183 refuses the none value in a field
without a none. -/
def rdPlant : List Byte → Option PlantCfg
  | [dp, on, off, fnh, fnl, ffh, ffl, bh, bl, mh, ml, fp, ov, dl, db, th, tl, sd, po, ft, rc] => do
    let dp ← rdRange 10 60 dp.toNat
    let on ← rdRange 1 30 on.toNat
    let off ← rdRange 1 30 off.toNat
    let fn ← rdRange 10 1000 (rdU16 fnh fnl)
    let ff ← rdRange 0 fn (rdU16 ffh ffl)
    let b ← rdT16Range 320 960 (rdT16 bh bl)
    let m ← rdT16Range b 1360 (rdT16 mh ml)
    let fp ← rdRange 10 100 fp.toNat
    let ov ← rdRange 0 30 ov.toNat
    let dl ← rdRange 1 8 dl.toNat
    let db ← rdRange 1 20 db.toNat
    let t ← rdRange 30 600 (rdU16 th tl)
    let po ← rdPoly po
    let ft ← rdRange 1 7 ft.toNat
    let rc ← rdRange 1 15 rc.toNat
    some ⟨dp, on, off, fn, ff, b, m, fp, ov, dl, db, t, sd, po, ft, rc⟩
  | _ => none

/-- A KINDMAP entry (R145). -/
def rdKindFlags : List Byte → Option KindFlags
  | [a, b] => do
    let a ← rdBool a
    let b ← rdBool b
    some ⟨a, b⟩
  | _ => none

/-! ### Table entries sent (11.5) -/

/-- The five configuration bytes of a NODE entry. -/
def nodeCfgBytes (c : NodeCfg) : List Byte :=
  [c.address, segmentCode c.segment, roleCode c.role, byteOpt (c.zone.map Fin.val),
    boolByte c.intake]

/-- The seven bytes of an actuator's fields. -/
def actuatorBytes (a : Actuator) : List Byte :=
  [byteOpt a.lastCmd, byteOpt a.pending, byteOpt a.confirmed, motionCode a.motion]
    ++ u16Opt a.timer ++ [valveFaultCode a.fault]

/-- A READ_ENTRY of a node: configuration, presence fields and, for an actuator, its fields; an
unused entry reads as the default entry of R155. -/
def nodeEntryBytes (c : NodeCfg) (r : NodeRt) : List Byte :=
  if c.used then
    nodeCfgBytes c
      ++ [presenceCode r.presence, presenceCauseCode r.presence, byteOf r.missCount, boolByte r.seen]
      ++ (if c.role = .actuator then actuatorBytes r.act else [])
  else nodeCfgBytes NodeCfg.default ++ [0, 0, 0, 0]

/-- The flags byte of a ZONE entry. -/
def zoneFlags (c : ZoneCfg) : Byte :=
  boolByte c.enabled ||| (boolByte c.windowDetection <<< 1) ||| (boolByte c.holidayEligible <<< 2)
    ||| (boolByte c.overrunPath <<< 3)

/-- A ZONE entry. -/
def zoneCfgBytes (c : ZoneCfg) : List Byte :=
  zoneFlags c :: (t16 c.minLimit ++ t16 c.maxLimit ++ [byteOf c.defaultLevel.val]
    ++ schedRefBytes c.schedule
    ++ [byteOf c.pb.toNat, byteOf c.ti, byteOf c.period, byteOf c.sensorTimeout]
    ++ u16 c.blindDemand ++ t16Opt c.floorLimit
    ++ [byteOf c.windowDrop.toNat, byteOf c.windowHold])

/-- A PROFILE entry. -/
def profileBytes (ps : List SwitchPoint) : List Byte :=
  byteOf ps.length :: ps.flatMap (fun p => u16 p.minute ++ [byteOf p.level.val])

/-- A PLANT entry. -/
def plantCfgBytes (c : PlantCfg) : List Byte :=
  [byteOf c.demandPeriod, byteOf c.minOn, byteOf c.minOff] ++ u16 c.fireOn ++ u16 c.fireOff
    ++ t16 c.baseFlow ++ t16 c.maxFlow
    ++ [byteOf c.flowPathMin, byteOf c.overrunTime, byteOf c.driveLimit, byteOf c.deadband]
    ++ u16 c.motionTimeout
    ++ [c.seed, polyCode c.polynomial, byteOf c.faultThreshold, byteOf c.recoveryCount]

/-- The entry a READ_ENTRY returns (11.5). -/
def entryBytes (s : State) : CommitItem → List Byte
  | .system => [s.work.system.ownAddress, byteOf s.work.system.rollInterval]
  | .node i => nodeEntryBytes (s.nodeCfg i) (s.node i)
  | .zone z => zoneCfgBytes (s.zoneCfg z)
  | .level l => t16 s.work.levels[l]
  | .profile p => profileBytes s.work.profiles[p]
  | .link l => schedRefBytes s.work.links[l]
  | .plant => plantCfgBytes s.work.plant
  | .kindMap k => [boolByte s.work.kindMap[k].roomToPlant, boolByte s.work.kindMap[k].plantToRoom]
  | .mode => []

/-! ### Runtime records sent (11.6) -/

/-- The six bytes both parts of READ_ZONE end with. -/
def clockHolidayBytes (s : State) : List Byte :=
  u16 s.clock.minute ++ [boolByte s.clock.valid ||| (boolByte s.holiday.active <<< 1),
    byteOf s.holiday.level.val] ++ u16 s.holiday.minutes

/-- Override kind, setpoint and field; an absent override is 0 throughout. -/
def overrideBytes : Option Override → List Byte
  | none => [0] ++ t16 0 ++ u16 0
  | some o => match o.kind with
    | .temporary n => [1] ++ t16 o.setpoint ++ u16 n
    | .untilNext l => [2] ++ t16 o.setpoint ++ u16 l.val
    | .permanent => [3] ++ t16 o.setpoint ++ u16 0

/-- READ_ZONE part 0. -/
def zonePart0 (s : State) (z : ZoneIx) : List Byte :=
  let r := s.zone z
  [regCode r.reg] ++ t16 r.setpoint ++ [sourceCode r.source, byteOpt (r.schedLevel.map Fin.val),
    schedFaultCode r.schedFault] ++ overrideBytes r.override ++ t16Opt r.zoneTemp
    ++ t16Opt r.floorTemp ++ u16 r.demand ++ u16 r.integral ++ t16Opt r.prevTemp
    ++ [byteOf (r.windowTimer.getD 0), byteOf (r.periodTimer.getD 0)] ++ clockHolidayBytes s

/-- One sensor slot in READ_ZONE part 1. -/
def slotBytes (c : Slot) : List Byte :=
  [byteOpt (c.bound.map Fin.val)] ++ t16Opt c.air ++ t16Opt c.floor
    ++ [boolByte c.valid ||| (boolByte c.batteryLow <<< 1), byteOf (c.age.getD 0)]

/-- READ_ZONE part 1. -/
def zonePart1 (s : State) (z : ZoneIx) : List Byte :=
  slotBytes (s.zone z).slot0 ++ slotBytes (s.zone z).slot1 ++ clockHolidayBytes s

/-- The window fields of READ_PLANT: window flow target and flags, 0 without a window. -/
def windowBytes : Option Window → List Byte
  | none => t16 0 ++ [0]
  | some w => t16 w.flow ++ [boolByte w.release ||| (boolByte w.judged <<< 1)]

/-- READ_PLANT. -/
def plantBytes (s : State) : List Byte :=
  [modeCode s.mode, boolByte s.pco.burnerOn, byteOf s.pco.burnerTimer, pumpCode s.pco.pump,
    byteOf (s.pco.overrunTimer.getD 0), byteOf (s.pco.demandTimer.getD 0),
    boolByte s.pco.flowPathOpen ||| (boolByte s.pco.plantAvailable <<< 1)]
    ++ u16 s.pco.openDemand ++ t16 s.pco.lastFlow
    ++ [plantStateCode s.pls.plantState, s.pls.question, byteOf s.pls.errors, byteOf s.pls.good,
      windowCode s.pls.window]
    ++ windowBytes s.pls.window ++ [statusCode s.pls.status] ++ t16Opt s.pls.actualFlow

/-- READ_SEGMENTS (11.4). -/
def segmentsBytes (s : State) : List Byte :=
  [healthCode s.room.health, healthCode s.plant.health, byteOf s.plant.fwd.length,
    byteOf s.room.fwd.length, byteOf s.room.own.length, byteOf s.plant.own.length,
    boolByte s.plant.fwdOverflow ||| (boolByte s.room.fwdOverflow <<< 1)]

/-- READ_NEWCOMERS (11.4). -/
def newcomerBytes (s : State) : List Byte :=
  [byteOf s.newcomers.length, boolByte s.newcomerOverflow] ++ s.newcomers

/-! ### Event records sent (11.3, 11.4) -/

/-- Event kind code. -/
def EventBody.kind : EventBody → Byte
  | .sensorLost .. => 1
  | .sensorBack .. => 2
  | .scheduleFault .. => 3
  | .valveFault .. => 4
  | .nodeAbsent .. => 5
  | .nodeBack .. => 6
  | .nodeMismatch .. => 7
  | .plantFault _ => 8
  | .plantOk _ => 9
  | .boilerLockout .. => 10
  | .segmentDown .. => 11
  | .segmentUp .. => 12
  | .configInvalid _ => 13
  | .modeChanged _ => 14

/-- The subject byte of a failed configuration check. -/
def checkSubjectByte : CheckSubject → Byte
  | .zone z => byteOf z.val
  | .node a => a
  | .nothing => 0xFF

/-- Event subject; none is 0xFF. -/
def EventBody.subject : EventBody → Byte
  | .sensorLost z _ => byteOf z.val
  | .sensorBack z _ => byteOf z.val
  | .scheduleFault z _ => byteOf z.val
  | .valveFault a _ => a
  | .nodeAbsent a _ => a
  | .nodeBack a _ => a
  | .nodeMismatch a _ => a
  | .plantFault _ => 0xFF
  | .plantOk _ => 0xFF
  | .boilerLockout a _ => a
  | .segmentDown x _ => segmentCode x
  | .segmentUp x _ => segmentCode x
  | .configInvalid f => checkSubjectByte f.subject
  | .modeChanged _ => 0xFF

/-- Event detail. -/
def EventBody.detail : EventBody → Byte
  | .sensorLost _ r => regCode r
  | .sensorBack _ k => byteOf k.val
  | .scheduleFault _ k => schedFaultCode (some k)
  | .valveFault _ f => valveFaultCode (some f)
  | .nodeAbsent _ p => presenceCode p
  | .nodeBack _ x => segmentCode x
  | .nodeMismatch _ c => causeCode c
  | .plantFault f => linkFaultCode f
  | .plantOk n => byteOf n
  | .boilerLockout _ b => statusCode b
  | .segmentDown _ h => healthCode h
  | .segmentUp _ h => healthCode h
  | .configInvalid f => byteOf f.check
  | .modeChanged m => modeCode m

/-- One event record in a FETCH_EVENTS reply. -/
def eventBytes (e : Event) : List Byte :=
  [e.body.kind, e.body.subject, e.body.detail] ++ u16Opt e.stamp

end Sys2Proof.Machine
end

