-- ==== Sys2Proof/Machine/Flags.lean ====
section
/-! DEFINITION. Conditions computed from the state: freshness and the zone temperatures (R16, R17),
the deadband judgement (R84), the flow path (R103), the plant-available flag (R104) and the
configuration check (R173). -/

namespace Sys2Proof.Machine

open Sys2Proof

/-! ### Sensor slots -/

/-- A slot is fresh: valid, and its age below the zone's sensor timeout (R16). -/
def Slot.fresh (timeout : Nat) (c : Slot) : Bool :=
  c.valid && (match c.age with
    | some a => decide (a < timeout)
    | none => false)

/-- The air reading of a fresh slot. -/
def Slot.freshAir (timeout : Nat) (c : Slot) : Option T16 :=
  if c.fresh timeout then c.air else none

/-- The floor reading of a fresh slot. -/
def Slot.freshFloor (timeout : Nat) (c : Slot) : Option T16 :=
  if c.fresh timeout then c.floor else none

/-- The zone temperature of R17: the mean of two fresh readings rounded down, or the one. -/
def zoneTempOf (timeout : Nat) (c0 c1 : Slot) : Option T16 :=
  match c0.freshAir timeout, c1.freshAir timeout with
  | some a, some b => some (Int.fdiv (a + b) 2)
  | some a, none => some a
  | none, some b => some b
  | none, none => none

/-- The floor temperature of R17: the larger of the fresh floor readings. -/
def floorTempOf (timeout : Nat) (c0 c1 : Slot) : Option T16 :=
  match c0.freshFloor timeout, c1.freshFloor timeout with
  | some a, some b => some (if a < b then b else a)
  | some a, none => some a
  | none, some b => some b
  | none, none => none

/-- Some slot of the zone is fresh (R62). -/
def ZoneRt.anyFresh (timeout : Nat) (r : ZoneRt) : Bool :=
  r.slot0.fresh timeout || r.slot1.fresh timeout

/-- The zone and floor temperatures recomputed (R17). -/
def ZoneRt.recompute (timeout : Nat) (r : ZoneRt) : ZoneRt :=
  { r with
    zoneTemp := zoneTempOf timeout r.slot0 r.slot1
    floorTemp := floorTempOf timeout r.slot0 r.slot1 }

/-! ### Valves -/

/-- A target differs from a reference position by enough to be sent, the end exceptions included
(R84). -/
def worthAgainst (deadband reference target : Nat) : Bool :=
  ((target == 0 || target == 100) && target != reference)
    || decide (deadband ≤ distance target reference)

/-- A derived target is worth sending (R84): always while the last commanded target is UNKNOWN. -/
def worthSending (deadband : Nat) (last : Option Nat) (target : Nat) : Bool :=
  match last with
  | none => true
  | some l => worthAgainst deadband l target

/-- The number of drive slots held (R86). -/
def movingCount (s : State) : Nat :=
  (allNodes.filter (fun i => (s.node i).act.motion == .moving)).length

/-! ### The plant -/

/-- The actuator holds the flow path open (R103). -/
def holdsPath (s : State) (i : NodeIx) : Bool :=
  (s.nodeCfg i).isActuator && (s.node i).presence == .present
    && (match (s.node i).act.confirmed with
      | some p => decide (s.work.plant.flowPathMin ≤ p)
      | none => false)

/-- The enabled zone of an actuator that holds the flow path open. -/
def pathZone (s : State) (i : NodeIx) : Option ZoneIx :=
  match (s.nodeCfg i).zone with
  | some z => if (s.zoneCfg z).enabled && holdsPath s i then some z else none
  | none => none

/-- The flow path is open (R103). -/
def flowPath (s : State) : Bool :=
  allNodes.any (fun i => (pathZone s i).isSome)

/-- The demand an actuator's zone adds to the open demand: 0 when it holds no path open. -/
def pathDemand (s : State) (i : NodeIx) : Nat :=
  match pathZone s i with
  | some z => (s.zone z).demand
  | none => 0

/-- The open demand (R103): the largest demand among enabled zones with an actuator holding the
flow path open, 0 with the path closed. -/
def openDemand (s : State) : Nat :=
  allNodes.foldl (fun m i => max m (pathDemand s i)) 0

/-- Some enabled zone has demand above 0 (R110). -/
def anyDemand (s : State) : Bool :=
  allZones.any (fun z => (s.zoneCfg z).enabled && decide (0 < (s.zone z).demand))

/-- The plant-available flag (R104). -/
def plantAvailableOf (p : Supervisor) : Bool :=
  match p.plantState with
  | .noBoiler => true
  | .ok => p.status == some .ready || p.status == some .firing
  | .sync => false
  | .fault => false

/-- The seed as loaded into the question register: a stored 0 gives 0x01 (R120). -/
def seedOf (c : PlantCfg) : Byte :=
  if c.seed = 0#8 then 1#8 else c.seed

/-! ### The configuration check (R173) -/

/-- The nodes, in rising index, whose configuration meets a test. -/
def nodesWhere (t : Tables) (p : NodeCfg → Bool) : List NodeCfg :=
  (allNodes.map (fun i => t.nodes[i])).filter p

/-- The zone is enabled. -/
def enabledZone (t : Tables) (z : Option ZoneIx) : Bool :=
  match z with
  | some z => t.zones[z].enabled
  | none => false

/-- Check 1: more than one BOILER_IF entry; the second is named. -/
def check1 (t : Tables) : Option CheckFailure :=
  match nodesWhere t NodeCfg.isBoiler with
  | _ :: c :: _ => some ⟨1, .node c.address⟩
  | _ => none

/-- Check 2: the BOILER_IF entry is configured on ROOM. -/
def check2 (t : Tables) : Option CheckFailure :=
  match nodesWhere t (fun c => c.isBoiler && c.segment == .room) with
  | c :: _ => some ⟨2, .node c.address⟩
  | [] => none

/-- Check 3: an enabled zone has no SENSOR or ROOM_UNIT entry on ROOM, or more than two. -/
def check3 (t : Tables) : Option CheckFailure :=
  match allZones.find? (fun z => t.zones[z].enabled &&
      let n := (nodesWhere t (fun c => c.isThermal && c.segment == .room && c.zone == some z)).length
      (n == 0 || decide (2 < n))) with
  | some z => some ⟨3, .zone z⟩
  | none => none

/-- Check 4: an enabled zone has no ACTUATOR entry on PLANT, or more than four. -/
def check4 (t : Tables) : Option CheckFailure :=
  match allZones.find? (fun z => t.zones[z].enabled &&
      let n := (nodesWhere t (fun c => c.isActuator && c.segment == .plant && c.zone == some z)).length
      (n == 0 || decide (4 < n))) with
  | some z => some ⟨4, .zone z⟩
  | none => none

/-- Check 5: a SENSOR or ROOM_UNIT entry of an enabled zone is on PLANT, or an ACTUATOR entry of one
is on ROOM. -/
def check5 (t : Tables) : Option CheckFailure :=
  match nodesWhere t (fun c => enabledZone t c.zone &&
      ((c.isThermal && c.segment == .plant) || (c.isActuator && c.segment == .room))) with
  | c :: _ => some ⟨5, .node c.address⟩
  | [] => none

/-- Check 6: a BOILER_IF entry exists, the overrun time is above 0, and no enabled zone has
overrun-path on. -/
def check6 (t : Tables) : Option CheckFailure :=
  if !(nodesWhere t NodeCfg.isBoiler).isEmpty && decide (0 < t.plant.overrunTime)
      && !(allZones.any (fun z => t.zones[z].enabled && t.zones[z].overrunPath)) then
    some ⟨6, .nothing⟩
  else none

/-- The configuration check: the first check that fails, or none (R173). -/
def configCheck (t : Tables) : Option CheckFailure :=
  check1 t <|> check2 t <|> check3 t <|> check4 t <|> check5 t <|> check6 t

end Sys2Proof.Machine
end

