-- ==== Sys2Proof/Machine/Resolver.lean ====
section
/-! DEFINITION. The Setpoint Resolver: schedule resolution (R27 to R32), overrides and the evaluation
of a zone (R39 to R50), and ZONE_NOTICE (R54). -/

namespace Sys2Proof.Machine

open Sys2Proof

/-! ### Schedule resolution -/

/-- The outcome of a resolution (R27). -/
inductive Resolution where
  | level (l : LevelIx)
  | noSchedule
  | fault (k : SchedFault)
  deriving DecidableEq, Repr

/-- The scheduled level R32 writes. -/
def Resolution.level? : Resolution → Option LevelIx
  | .level l => some l
  | .noSchedule => none
  | .fault _ => none

/-- The schedule fault kind R32 writes. -/
def Resolution.fault? : Resolution → Option SchedFault
  | .level _ => none
  | .noSchedule => none
  | .fault k => some k

/-- The walk of R28 with `hops` hops left: the final reference and the pending-offset flag, or none
for CHAIN_TOO_DEEP. -/
def walk (links : Vector SchedRef 16) : Nat → SchedRef → Bool → Option (SchedRef × Bool)
  | 0, .linked _, _ => none
  | 0, .linkedDayIndexed _, _ => none
  | hops + 1, .linked l, flag => walk links hops links[l] flag
  | hops + 1, .linkedDayIndexed l, _ => walk links hops links[l] true
  | _, ref, flag => some (ref, flag)

/-- The profile number of a final reference on day d (R29); none for a NONE reference. -/
def profileNumber (ref : SchedRef) (flag : Bool) (d : Nat) : Option Nat :=
  match ref with
  | .direct p => some (if flag then p.val + d else p.val)
  | .dayIndexed p => some (p.val + d)
  | .noRef => none
  | .linked _ => none
  | .linkedDayIndexed _ => none

/-- The profile of a number: none is the fault RANGE (R29). -/
def profileAt (t : Tables) (n : Nat) : Option (List SwitchPoint) :=
  if h : n < 64 then some t.profiles[n] else none

/-- The last switch point at or before minute m; the points stand in rising minute order (R30). -/
def pointAt (ps : List SwitchPoint) (m : Nat) : Option SwitchPoint :=
  (ps.filter (fun p => decide (p.minute ≤ m))).getLast?

/-- The previous-day carry (R31): the day before at minute 1439. -/
def carry (t : Tables) (ref : SchedRef) (flag : Bool) (d : Nat) : Resolution :=
  match profileNumber ref flag ((d + 6) % 7) with
  | none => .noSchedule
  | some n =>
    match profileAt t n with
    | none => .fault .range
    | some ps =>
      match ps.getLast? with
      | none => .fault .emptyProfile
      | some p => .level p.level

/-- The choice of a level at day d, minute of day m (R29, R30). -/
def selectLevel (t : Tables) (ref : SchedRef) (flag : Bool) (d m : Nat) : Resolution :=
  match profileNumber ref flag d with
  | none => .noSchedule
  | some n =>
    match profileAt t n with
    | none => .fault .range
    | some [] => .fault .emptyProfile
    | some ps =>
      match pointAt ps m with
      | some p => .level p.level
      | none => carry t ref flag d

/-- The resolution of a reference at the clock's time (R27 to R31): at most four hops. -/
def resolve (t : Tables) (c : Clock) (ref : SchedRef) : Resolution :=
  if c.valid then
    match walk t.links 4 ref false with
    | none => .fault .chainTooDeep
    | some (fin, flag) => selectLevel t fin flag (c.minute / 1440) (c.minute % 1440)
  else .noSchedule

/-- Zone z resolved against the tables and the clock as they stand. -/
def resolveZone (z : ZoneIx) (s : State) : Resolution :=
  resolve s.work s.clock (s.zoneCfg z).schedule

/-- The outcome is written into the zone record; entry into a fault kind adds SCHEDULE_FAULT
(R32). -/
def recordResolution (z : ZoneIx) (r : Resolution) (s : State) : State :=
  let s' := s.setZone z { s.zone z with schedLevel := r.level?, schedFault := r.fault? }
  match r.fault? with
  | none => s'
  | some k => if (s.zone z).schedFault = some k then s' else addEvent (.scheduleFault z k) s'

/-! ### The evaluation of a zone -/

/-- An UNTIL_NEXT override whose placement level differs from the level just resolved is removed; a
fault and no schedule differ (R48). -/
def dropUntilNext (r : Resolution) (o : Option Override) : Option Override :=
  match o with
  | some ⟨.untilNext l, sp⟩ => if r.level? = some l then some ⟨.untilNext l, sp⟩ else none
  | o => o

/-- The candidate setpoint and its source by the precedence of R42. -/
def candidate (s : State) (z : ZoneIx) (o : Option Override) (r : Resolution) : T16 × Source :=
  let c := s.zoneCfg z
  if !c.enabled then (c.minLimit, .default)
  else match o with
    | some o => (o.setpoint, .override)
    | none =>
      if s.holiday.active && c.holidayEligible then (s.work.levels[s.holiday.level], .holiday)
      else match r with
        | .level l => (s.work.levels[l], .schedule)
        | .fault _ => (s.work.levels[(0 : LevelIx)], .fallback)
        | .noSchedule => (s.work.levels[c.defaultLevel], .default)

/-- A value clamped to a zone's limits (R43, R46). -/
def clampToLimits (c : ZoneCfg) (t : T16) : T16 := clamp c.minLimit c.maxLimit t

/-- Steps 2 to 4 of an evaluation: override, active setpoint and source of the zone record. -/
def settleSetpoint (z : ZoneIx) (r : Resolution) (s : State) : State :=
  let o := dropUntilNext r (s.zone z).override
  let c := candidate s z o r
  s.setZone z { s.zone z with
    override := o
    setpoint := clampToLimits (s.zoneCfg z) c.1
    source := c.2 }

/-- A node entry is sent the notices of zone z (R54). -/
def noticed (s : State) (z : ZoneIx) (i : NodeIx) : Bool :=
  (s.nodeCfg i).used && (s.nodeCfg i).role == .roomUnit && (s.nodeCfg i).zone == some z
    && (s.nodeCfg i).segment == .room
    && ((s.node i).presence == .present || (s.node i).presence == .unknown)

/-- The ZONE_NOTICE of zone z to node entry i (R54). -/
def noticeFor (s : State) (z : ZoneIx) (i : NodeIx) : OwnFrame :=
  ⟨(s.nodeCfg i).address, s.ownAddress,
    .zoneNotice z (s.zone z).setpoint (s.zone z).source (s.zone z).zoneTemp⟩

/-- The notices of a change, in rising index order; one without room is skipped (R54). -/
def sendNotices (z : ZoneIx) (s : State) : State :=
  forNodes (fun i s => if noticed s z i then offerOwn .room (noticeFor s z i) s else s) s

/-- Steps 1 to 4 of R39. -/
def evaluateQuietly (z : ZoneIx) (s : State) : State :=
  let r := resolveZone z s
  settleSetpoint z r (recordResolution z r s)

/-- The evaluation of zone z (R39): a change of setpoint or source is noticed. -/
def evaluate (z : ZoneIx) (s : State) : State :=
  let s' := evaluateQuietly z s
  if (s'.zone z).setpoint = (s.zone z).setpoint ∧ (s'.zone z).source = (s.zone z).source then s'
  else sendNotices z s'

/-- Every zone evaluated in rising order (R40). -/
def evaluateAll (s : State) : State := forZones evaluate s

/-- Every zone's setpoint established at a reset, without notices (R10). -/
def evaluateAllQuietly (s : State) : State := forZones evaluateQuietly s

/-! ### Overrides and holiday -/

/-- Replace a zone's override record. -/
def setOverride (z : ZoneIx) (o : Option Override) (s : State) : State :=
  s.setZone z { s.zone z with override := o }

/-- A new override replaces the zone's present one and the zone is evaluated (R46). -/
def placeOverride (z : ZoneIx) (o : Override) (s : State) : State :=
  evaluate z (setOverride z (some o) s)

/-- An override present is removed and the zone evaluated; none present changes nothing (R50). -/
def removeOverride (z : ZoneIx) (s : State) : State :=
  match (s.zone z).override with
  | some _ => evaluate z (setOverride z none s)
  | none => s

/-- UNTIL_NEXT is placed by a resolution made at once: TEMPORARY for 240 minutes when it gives no
level (R47). -/
def placeUntilNext (z : ZoneIx) (sp : T16) (s : State) : State :=
  let r := resolveZone z s
  let s' := recordResolution z r s
  match r.level? with
  | some l => placeOverride z ⟨.untilNext l, sp⟩ s'
  | none => placeOverride z ⟨.temporary 240, sp⟩ s'

/-- A taken request changes the override record (R46, R47, R50). -/
def applyRequest (z : ZoneIx) (o : OverrideRequest) (s : State) : State :=
  match o with
  | .temporary sp d =>
    placeOverride z ⟨.temporary (clamp 15 1440 d).toNat, clampToLimits (s.zoneCfg z) sp⟩ s
  | .permanent sp => placeOverride z ⟨.permanent, clampToLimits (s.zoneCfg z) sp⟩ s
  | .untilNext sp => placeUntilNext z (clampToLimits (s.zoneCfg z) sp) s
  | .cancel => removeOverride z s

/-- The holiday's countdown at a minute tick (R53). -/
def tickHoliday (h : Holiday) : Holiday :=
  if h.active then (if h.minutes ≤ 1 then Holiday.inactive else { h with minutes := h.minutes - 1 })
  else h

/-- A TEMPORARY override's countdown at a minute tick (R49). -/
def tickOverride (o : Option Override) : Option Override :=
  match o with
  | some ⟨.temporary n, sp⟩ => if n ≤ 1 then none else some ⟨.temporary (n - 1), sp⟩
  | o => o

/-- The Setpoint Resolver's handling of a minute tick, in the order of R41. -/
def tickResolver (s : State) : State :=
  evaluateAll (forZones (fun z s => setOverride z (tickOverride (s.zone z).override) s)
    (s.setHoliday (tickHoliday s.holiday)))

end Sys2Proof.Machine
end

