-- ==== Sys2Proof/Machine/Valves.lean ====
section
/-! DEFINITION. The Valve Drive Scheduler: targets, the Drive Queue, the drive slots and valve motion
(R79 to R98). -/

namespace Sys2Proof.Machine

open Sys2Proof

/-! ### Issue -/

/-- The conditions of R87 hold. -/
def mayIssue (s : State) : Bool :=
  s.mode == .run && decide (movingCount s < s.work.plant.driveLimit)
    && decide ((s.seg .plant).own.length < 8) && (s.seg .plant).health == .up

/-- The VALVE_CMD of a Drive Queue entry (R87). -/
def valveCmdFor (s : State) (e : DriveEntry) : OwnFrame :=
  ⟨(s.nodeCfg e.node).address, s.ownAddress, .valveCmd e.node s.nextIssue e.target⟩

/-- The actuator's fields once its command is issued (R87). -/
def issuedAct (a : Actuator) (e : DriveEntry) (n : Nat) : Actuator :=
  { a with
    motion := .moving
    timer := none
    lastCmd := some e.target
    pending := none
    lastIssue := some n }

/-- The head of the Drive Queue is issued (R87). -/
def issueHead (e : DriveEntry) (rest : List DriveEntry) (s : State) : State :=
  let s1 := pushOwn .plant (valveCmdFor s e) s
  let s2 := s1.setAct e.node (issuedAct (s.node e.node).act e s.nextIssue)
  { s2 with driveQueue := rest, nextIssue := s.nextIssue + 1 }

/-- Heads are issued until one of the conditions fails; at most `fuel` of them. -/
def issueUpTo : Nat → State → State
  | 0, s => s
  | fuel + 1, s =>
    match s.driveQueue with
    | [] => s
    | e :: rest => if mayIssue s then issueUpTo fuel (issueHead e rest s) else s

/-- Issue as the conditions allow (R87). -/
def issue (s : State) : State := issueUpTo s.driveQueue.length s

/-! ### Targets -/

/-- An actuator's entries leave the Drive Queue. -/
def dequeue (i : NodeIx) (s : State) : State :=
  s.setDrive (s.driveQueue.filter (fun e => e.node != i))

/-- A target joins the tail of the Drive Queue and its actuator becomes QUEUED (R85). -/
def enqueue (i : NodeIx) (t : Nat) (s : State) : State :=
  (s.setDrive (s.driveQueue ++ [⟨i, t⟩])).setAct i { (s.node i).act with motion := .queued }

/-- The target of an actuator's Drive Queue entry is replaced; the entry keeps its place (R85). -/
def retarget (i : NodeIx) (t : Nat) (s : State) : State :=
  s.setDrive (s.driveQueue.map (fun e => if e.node = i then ⟨i, t⟩ else e))

/-- A derived target is placed by the actuator's motion (R85), and issue follows (R87). -/
def placeTarget (i : NodeIx) (t : Nat) (s : State) : State :=
  let a := (s.node i).act
  let worth := worthSending s.work.plant.deadband a.lastCmd t
  match a.motion with
  | .idle => if worth then issue (enqueue i t s) else s
  | .queued =>
    if worth then retarget i t s
    else (dequeue i s).setAct i { a with motion := .idle }
  | .moving => s.setAct i { a with pending := some t }

/-- The target of zone z's actuators (R83): the zone valve target, held at the flow-path minimum or
above for an overrun-path zone during the overrun. -/
def targetOf (s : State) (z : ZoneIx) : Nat :=
  if (s.zoneCfg z).overrunPath && s.pco.pump == .overrun then
    max (s.zone z).valveTarget s.work.plant.flowPathMin
  else (s.zone z).valveTarget

/-- The actuator of a zone is given targets: a PLANT actuator, PRESENT or UNKNOWN, in RUN (R79,
R83). -/
def drivable (s : State) (i : NodeIx) : Bool :=
  s.mode == .run && (s.nodeCfg i).isActuator && (s.nodeCfg i).segment == .plant
    && ((s.node i).presence == .present || (s.node i).presence == .unknown)

/-- A target is derived for one actuator (R83). -/
def deriveTarget (i : NodeIx) (s : State) : State :=
  match (s.nodeCfg i).zone with
  | some z => if drivable s i then placeTarget i (targetOf s z) s else s
  | none => s

/-- Targets for every actuator whose zone meets a test, in rising index order (R83). -/
def deriveWhere (p : ZoneCfg → ZoneIx → Bool) (s : State) : State :=
  forNodes (fun i s =>
    match (s.nodeCfg i).zone with
    | some z => if p (s.zoneCfg z) z then deriveTarget i s else s
    | none => s) s

/-- A hand-over of V at a regulation event of zone z (R77, R82, R83). -/
def handOverTarget (z : ZoneIx) (v : Nat) (s : State) : State :=
  deriveWhere (fun _ z' => z' == z) (s.setZone z { s.zone z with valveTarget := v })

/-- The pump enters or leaves PUMP_OVERRUN (R83, R112). -/
def overrunChanged (s : State) : State := deriveWhere (fun c _ => c.overrunPath) s

/-- Entry into RUN: targets for the actuators of disabled zones, and issue (R83, R98). -/
def driveOnEntry (s : State) : State := issue (deriveWhere (fun c _ => !c.enabled) s)

/-! ### The end of a motion -/

/-- A slot is released with the last commanded target lost (R90, R91). -/
def lostCommand (a : Actuator) : Actuator :=
  { a with motion := .idle, lastCmd := none, pending := none, timer := none, lastIssue := none }

/-- The command is the one most recently issued to a MOVING actuator (R89, R90). -/
def currentCommand (a : Actuator) (n : Nat) : Bool :=
  a.motion == .moving && a.lastIssue == some n

/-- The transmission of a VALVE_CMD completes: the motion timer starts (R89). -/
def valveCmdCompleted (i : NodeIx) (n : Nat) (s : State) : State :=
  let a := (s.node i).act
  if currentCommand a n && a.timer == none then
    s.setAct i { a with timer := some s.work.plant.motionTimeout }
  else s

/-- The transmission of a VALVE_CMD is abandoned (R90). -/
def valveCmdAbandoned (i : NodeIx) (n : Nat) (s : State) : State :=
  let a := (s.node i).act
  if currentCommand a n then s.setAct i (lostCommand a) else s

/-- The PLANT segment enters NO_SUPPLY: every MOVING actuator whose motion timer is absent is treated
as abandoned (R90). -/
def untransmittedLost (s : State) : State :=
  forNodes (fun i s =>
    let a := (s.node i).act
    if a.motion == .moving && a.timer == none then s.setAct i (lostCommand a) else s) s

/-- A motion timer expires (R91), and the slot is free for the next issue. -/
def motionExpired (i : NodeIx) (s : State) : State :=
  let a := (s.node i).act
  if a.motion == .moving && a.timer != none then
    issue (addEvent (.valveFault (s.nodeCfg i).address .noCompletion)
      (s.setAct i { lostCommand a with fault := some .noCompletion }))
  else s

/-- The fields of an actuator whose motion has ended by its own report (R93). -/
def stoppedAct (a : Actuator) (f : Option ValveFault) : Actuator :=
  { a with motion := .idle, timer := none, pending := none, fault := f, lastIssue := none }

/-- AT_TARGET: the slot is released, and a pending target that passes against the position reached is
queued (R93). -/
def reachedTarget (i : NodeIx) (pos : Nat) (s : State) : State :=
  let a := (s.node i).act
  let s' := s.setAct i (stoppedAct a none)
  issue (match a.pending with
    | some t => if worthAgainst s.work.plant.deadband pos t then enqueue i t s' else s'
    | none => s')

/-- BLOCKED: the slot is released, the fault recorded and VALVE_FAULT added (R93, R95). -/
def stoppedBlocked (i : NodeIx) (s : State) : State :=
  issue (addEvent (.valveFault (s.nodeCfg i).address .blocked)
    (s.setAct i (stoppedAct (s.node i).act (some .blocked))))

/-- The effect of a taken report on a MOVING actuator whose motion timer is running (R93). -/
def motionReported (i : NodeIx) (pos : Nat) (m : ReportedMotion) (s : State) : State :=
  match m with
  | .moving => s
  | .atTarget => reachedTarget i pos s
  | .blocked => stoppedBlocked i s

/-- The scheduler takes a report: not from an actuator in MISMATCH (R92), nor from one configured on
ROOM, whose fields keep their reset values (R79, log 27). -/
def takesStatus (s : State) (i : NodeIx) : Bool :=
  (s.nodeCfg i).segment == .plant && (match (s.node i).presence with
    | .mismatch _ => false
    | .unknown => true
    | .present => true
    | .absent => true)

/-- A VALVE_STATUS handed to the scheduler (R92 to R94). -/
def valveStatus (i : NodeIx) (pos : Nat) (m : Option ReportedMotion) (s : State) : State :=
  match m with
  | none => s
  | some m =>
    if takesStatus s i then
      let a := (s.node i).act
      let s' := s.setAct i { a with confirmed := some (min pos 100) }
      if a.motion == .moving && a.timer != none then motionReported i (min pos 100) m s' else s'
    else s

/-! ### Leaving the bus and changes of the entry -/

/-- The fields of an actuator made ABSENT or MISMATCH (R96): its fault is unchanged. -/
def leftAct (a : Actuator) : Actuator := { Actuator.reset with fault := a.fault }

/-- An actuator becomes ABSENT or MISMATCH (R96); a slot released is free for the next issue. -/
def leaveBus (i : NodeIx) (s : State) : State :=
  issue ((dequeue i s).setAct i (leftAct (s.node i).act))

/-- An actuator becomes PRESENT: one of a disabled zone is given its target at once (R83, R96). -/
def joinBus (i : NodeIx) (s : State) : State :=
  match (s.nodeCfg i).zone with
  | some z => if (s.zoneCfg z).enabled then s else deriveTarget i s
  | none => s

/-- A change of address, role, zone or segment of an entry: its actuator fields take the reset values
and it leaves the Drive Queue (R81). -/
def resetEntry (i : NodeIx) (s : State) : State :=
  (dequeue i s).setAct i Actuator.reset

/-- The stand-down at SET_MODE COMMISSION (R97). -/
def standDownAct (a : Actuator) : Actuator :=
  match a.motion with
  | .queued => { a with motion := .idle }
  | .moving => { a with pending := none }
  | .idle => a

/-- The Valve Drive Scheduler stands down (R97). -/
def standDownValves (s : State) : State :=
  let s1 := forNodes (fun i s => s.setAct i (standDownAct (s.node i).act)) s
  let s2 := forZones (fun z s => s.setZone z { s.zone z with valveTarget := 0 }) s1
  s2.setDrive []

end Sys2Proof.Machine
end

