-- ==== Sys2Proof/Machine/Link.lean ====
section
/-! DEFINITION. The Plant Link Supervisor (R118 to R131). -/

namespace Sys2Proof.Machine

open Sys2Proof

/-! ### The question (R121, R122) -/

/-- The feedback bit: the exclusive-or of the register's tap bits. -/
def feedback (p : Polynomial) (q : Byte) : Bool :=
  match p with
  | .polyA => ((q.getLsbD 7 ^^ q.getLsbD 5) ^^ q.getLsbD 4) ^^ q.getLsbD 3
  | .polyB => ((q.getLsbD 7 ^^ q.getLsbD 3) ^^ q.getLsbD 2) ^^ q.getLsbD 1

/-- One step of the question register: times 2 modulo 256, plus the feedback bit (R121). -/
def stepQuestion (p : Polynomial) (q : Byte) : Byte :=
  (q <<< 1) ||| boolByte (feedback p q)

/-- The expected answer (R122). -/
def expectedAnswer (q : Byte) (flow : T16) (release : Bool) : Byte :=
  (q ^^^ BitVec.ofInt 8 flow) ^^^ (if release then 0x80#8 else 0#8)

/-! ### Standing -/

/-- The supervisor's fields at a reset and at an entry into or leaving of RUN, the question register
apart (R119). -/
def Supervisor.fresh (boiler : Bool) (question : Byte) : Supervisor :=
  ⟨if boiler then .sync else .noBoiler, question, 0, 0, none, none, none⟩

/-- The plant-available flag is recomputed (R104). -/
def refreshAvailable (s : State) : State :=
  s.setPco { s.pco with plantAvailable := plantAvailableOf s.pls }

/-- New supervisor fields, with the plant-available flag they give (R104). -/
def setLink (p : Supervisor) (s : State) : State := refreshAvailable (s.setPls p)

/-! ### Counts and plant state (R128 to R130) -/

/-- The counts after a fault (R129). -/
def chargedCounts (threshold : Nat) (p : Supervisor) : Supervisor :=
  { p with errors := min (p.errors + 1) threshold, good := 0 }

/-- A fault is charged (R129) and the plant state moved (R130). -/
def charge (f : LinkFault) (s : State) : State :=
  let p := chargedCounts s.work.plant.faultThreshold s.pls
  if p.plantState = .ok ∧ p.errors = s.work.plant.faultThreshold then
    addEvent (.plantFault f)
      (setLink { p with plantState := .fault, status := none, actualFlow := none } s)
  else setLink p s

/-- The fields after a GOOD answer (R128). -/
def goodCounts (poly : Polynomial) (st : BoilerStatus) (flow : T16) (p : Supervisor) : Supervisor :=
  { p with
    errors := p.errors - 1
    good := min (p.good + 1) 15
    question := stepQuestion poly p.question
    status := some st
    actualFlow := some (clamp (-640) 1600 flow) }

/-- The plant state after a GOOD answer (R130). -/
def movedByGood (recovery : Nat) (p : Supervisor) : Supervisor :=
  match p.plantState with
  | .sync => { p with plantState := .ok, errors := 0 }
  | .fault => if recovery ≤ p.good then { p with plantState := .ok, errors := 0 } else p
  | .ok => p
  | .noBoiler => p

/-- A GOOD answer from the boiler interface at address `a` (R128, R130, R131). -/
def goodAnswer (a : Byte) (st : BoilerStatus) (flow : T16) (s : State) : State :=
  let p := goodCounts s.work.plant.polynomial st flow s.pls
  let p' := movedByGood s.work.plant.recoveryCount p
  let s1 := setLink p' s
  let s2 := if st = .lockout ∧ s.pls.status ≠ some .lockout
    then addEvent (.boilerLockout a s.pls.status) s1 else s1
  if s.pls.plantState = .fault ∧ p'.plantState = .ok then addEvent (.plantOk p.good) s2 else s2

/-! ### The answer window (R123 to R126) -/

/-- The window closes: MISSED is charged when its judged flag is clear (R124). -/
def closeWindow (w : Window) (s : State) : State :=
  let s' := s.setPls { s.pls with window := none }
  if w.judged then s' else charge .missed s'

/-- The transmission of a BOILER_DEMAND completes: a window still open ends, and a new one opens
(R123). DESIGN CHOICE, unsafe: the mode at the completion decides, so a frame built before a leaving of RUN that
completes after a new entry into RUN opens a window too, which R123 leaves open (log 29). -/
def demandCompleted (flow : T16) (release : Bool) (s : State) : State :=
  if s.mode = .run ∧ s.pls.plantState ≠ .noBoiler then
    let s' := match s.pls.window with
      | some w => closeWindow w s
      | none => s
    s'.setPls { s'.pls with window := some ⟨.closedPart, flow, release, false⟩ }
  else s

/-- A considered answer is judged by the phase it is taken in (R126). -/
def judge (w : Window) (a answer : Byte) (st : BoilerStatus) (flow : T16) (s : State) : State :=
  let s' := s.setPls { s.pls with window := some { w with judged := true } }
  match w.part with
  | .closedPart => charge .early s'
  | .openPart =>
    if answer = expectedAnswer s.pls.question w.flow w.release then goodAnswer a st flow s'
    else charge .bad s'

/-- A BOILER_ANSWER handed to the supervisor from node entry i (R125). -/
def boilerAnswer (i : NodeIx) (payload : List Byte) (s : State) : State :=
  match s.pls.window, (s.node i).presence, payload with
  | none, _, _ => s
  | _, .mismatch _, _ => s
  | some w, _, [echo, answer, st, fh, fl] =>
    match rdStatus st with
    | none => s
    | some st =>
      if echo = s.pls.question ∧ w.judged = false then
        judge w (s.nodeCfg i).address answer st (rdT16 fh fl) s
      else s
  | some _, _, _ => s

/-- A demand period expiry is signalled: MISSED while the PLANT segment is not UP (R127). -/
def expirySignalled (s : State) : State :=
  if (s.seg .plant).health ≠ .up ∧ s.pls.plantState ≠ .noBoiler then charge .missed s else s

/-- The supervisor at an entry into or leaving of RUN by SET_MODE (R119). -/
def supervisorModeChange (question : Byte) (s : State) : State :=
  setLink (Supervisor.fresh (hasBoiler s) question) s

/-- A Node Table write has added the first BOILER_IF entry or removed the last (R119). -/
def boilerEntryChanged (before : Bool) (s : State) : State :=
  if hasBoiler s = before then s
  else setLink (Supervisor.fresh (hasBoiler s) s.pls.question) s

end Sys2Proof.Machine
end

