-- ==== Sys2Proof/Machine/Boiler.lean ====
section
/-! DEFINITION. The Plant Coordinator (R99 to R117). -/

namespace Sys2Proof.Machine

open Sys2Proof

/-- Step 2 of an expiry taken in BURNER_OFF: the burner may be released (R107). -/
def mayFire (s : State) : Bool :=
  s.pco.burnerTimer == 0 && s.pls.plantState == .ok && s.pco.flowPathOpen
    && decide (s.work.plant.fireOn ≤ s.pco.openDemand)

/-- Step 2 of an expiry taken in BURNER_ON: the burner is stopped (R108). -/
def mustStop (s : State) : Bool :=
  s.pls.plantState != .ok || !s.pco.flowPathOpen
    || (decide (s.pco.openDemand < s.work.plant.fireOff) && s.pco.burnerTimer == 0)

/-- An overrun timer started: absent for an overrun time of 0 (R111). -/
def startOverrun (time : Nat) : Option Nat := if time = 0 then none else some time

/-- Step 1: the flow path and the open demand are found and stored (R103). -/
def findPath (s : State) : State :=
  s.setPco { s.pco with flowPathOpen := flowPath s, openDemand := openDemand s }

/-- Step 2: the burner state is decided (R107, R108, R111). -/
def decideBurner (s : State) : State :=
  if s.pco.burnerOn then
    if mustStop s then
      s.setPco { s.pco with
        burnerOn := false
        burnerTimer := s.work.plant.minOff
        overrunTimer := startOverrun s.work.plant.overrunTime }
    else s
  else if mayFire s then
    s.setPco { s.pco with burnerOn := true, burnerTimer := s.work.plant.minOn }
  else s

/-- The pump state of R110, from the fields as stored. -/
def pumpOf (s : State) : Pump :=
  if s.pco.burnerOn || (anyDemand s && s.pco.flowPathOpen) then .on
  else if s.pco.overrunTimer.isSome then .overrun
  else .off

/-- A new pump state; entering or leaving PUMP_OVERRUN is told to the Valve Drive Scheduler (R112). -/
def setPump (p : Pump) (s : State) : State :=
  let s' := s.setPco { s.pco with pump := p }
  if (s.pco.pump == .overrun) == (p == .overrun) then s' else overrunChanged s'

/-- Step 3: the pump state is decided (R110). -/
def decidePump (s : State) : State := setPump (pumpOf s) s

/-- Step 4: the flow target F (R105). -/
def flowTarget (c : PlantCfg) (demand : Nat) : T16 :=
  c.baseFlow + Int.fdiv (demand * (c.maxFlow - c.baseFlow)) 1000

/-- The flow target a BOILER_DEMAND carries: F in BURNER_ON, 0 otherwise (R113). -/
def demandFlow (s : State) : T16 :=
  if s.pco.burnerOn then flowTarget s.work.plant s.pco.openDemand else 0

/-- The pump request (R113). -/
def pumpRequest : Pump → Bool
  | .off => false
  | .on => true
  | .overrun => true

/-- A BOILER_DEMAND to the boiler interface (R113). -/
def demandFrame (s : State) (i : NodeIx) (flow : T16) (release pump : Bool) : OwnFrame :=
  ⟨(s.nodeCfg i).address, s.ownAddress, .boilerDemand flow release pump s.pls.question⟩

/-- Step 5, the frame: built and placed while the PLANT segment is UP (R113, R114). -/
def orderBoiler (s : State) : State :=
  match findBoiler s with
  | some i =>
    if (s.seg .plant).health = .up then
      (offerDemand (demandFrame s i (demandFlow s) s.pco.burnerOn (pumpRequest s.pco.pump)) s).setPco
        { s.pco with lastFlow := demandFlow s }
    else s
  | none => s

/-- The demand period expiry as one whole operation (R102); a change of the pump is told to the Valve Drive
Scheduler before the frame is placed (R112, log 13). -/
def demandExpiry (s : State) : State :=
  expirySignalled (orderBoiler (decidePump (decideBurner (findPath s))))

/-- The timer runs out and is re-armed, and the expiry is taken (R101). -/
def demandTimerRunOut (s : State) : State :=
  match s.pco.demandTimer with
  | some _ => demandExpiry (s.setPco { s.pco with demandTimer := some s.work.plant.demandPeriod })
  | none => s

/-- The burner timer at a minute tick (R109). -/
def tickBurner (s : State) : State :=
  s.setPco { s.pco with burnerTimer := s.pco.burnerTimer - 1 }

/-- The overrun timer runs out: in PUMP_OVERRUN the pump state is decided again at once (R111). -/
def overrunRunOut (s : State) : State :=
  let s' := s.setPco { s.pco with overrunTimer := none }
  if s.pco.pump = .overrun then decidePump s' else s'

/-- The overrun timer at a minute tick (R111). -/
def tickOverrun (s : State) : State :=
  match s.pco.overrunTimer with
  | none => s
  | some n =>
    if n ≤ 1 then overrunRunOut s
    else s.setPco { s.pco with overrunTimer := some (n - 1) }

/-- The Plant Coordinator's handling of a minute tick (R109, R111). -/
def tickCoordinator (s : State) : State := tickOverrun (tickBurner s)

/-- The demand period timer at an entry into RUN (R101). -/
def armDemand (s : State) : Option Nat :=
  if hasBoiler s then some s.work.plant.demandPeriod else none

/-- The Plant Coordinator at an entry into RUN by SET_MODE (R116). -/
def coordinatorEnterRun (s : State) : State :=
  s.setPco { s.pco with
    burnerOn := false
    burnerTimer := s.work.plant.minOff
    pump := .off
    overrunTimer := none
    flowPathOpen := false
    openDemand := 0
    lastFlow := 0
    demandTimer := armDemand s }

/-- The final BOILER_DEMAND of a stand-down (R115); where none is built the last flow target stays (log
14). -/
def finalOrder (s : State) : State :=
  match findBoiler s with
  | some i =>
    if (s.seg .plant).health = .noSupply then s
    else (offerDemand (demandFrame s i 0 false false) s).setPco { s.pco with lastFlow := 0 }
  | none => s

/-- The Plant Coordinator stands down (R115). No target is derived, since the mode is COMMISSION. -/
def standDownBoiler (s : State) : State :=
  let s' := finalOrder s
  s'.setPco { s'.pco with
    burnerOn := false
    burnerTimer := s.work.plant.minOff
    pump := .off
    overrunTimer := none
    demandTimer := none }

end Sys2Proof.Machine
end

