-- ==== Sys2Proof/Machine/Regulator.lean ====
section
/-! DEFINITION. The Zone Regulator: sensor slots (R11 to R17), the regulation event (R56 to R78) and
its handling of a minute tick. -/

namespace Sys2Proof.Machine

open Sys2Proof

/-! ### Sensor slots -/

/-- A zone's temperatures recomputed against its sensor timeout (R17). -/
def recomputeZone (z : ZoneIx) (s : State) : State :=
  s.setZone z ((s.zone z).recompute (s.zoneCfg z).sensorTimeout)

/-- A report taken into a slot (R14). -/
def Slot.take (r : TempReport) (c : Slot) : Slot :=
  { c with air := some r.air, floor := r.floor, batteryLow := r.batteryLow, age := some 0, valid := true }

/-- A report taken into the slots of one zone that are bound to node entry i. -/
def takeInZone (i : NodeIx) (r : TempReport) (z : ZoneIx) (s : State) : State :=
  let v := s.zone z
  if v.slot0.bound = some i then recomputeZone z (s.setZone z { v with slot0 := v.slot0.take r })
  else if v.slot1.bound = some i then recomputeZone z (s.setZone z { v with slot1 := v.slot1.take r })
  else s

/-- A TEMP_REPORT handed over from node entry i (R14): ignored with the air value out of range,
discarded when no slot is bound to the node. -/
def tempReport (i : NodeIx) (payload : List Byte) (s : State) : State :=
  match rdTempReport payload with
  | some r => if t16InRange r.air then forZones (takeInZone i r) s else s
  | none => s

/-- A slot's age at a minute tick (R16). -/
def Slot.ageOne (c : Slot) : Slot :=
  match c.bound, c.age with
  | some _, some a => { c with age := some (min (a + 1) 255) }
  | _, _ => c

/-- The ages of a zone's slots at a minute tick, and its temperatures recomputed (R16). -/
def ageZone (z : ZoneIx) (s : State) : State :=
  let v := s.zone z
  recomputeZone z (s.setZone z { v with slot0 := v.slot0.ageOne, slot1 := v.slot1.ageOne })

/-- The candidate nodes of zone z's slots, in rising index (R12). -/
def slotCandidates (s : State) (z : ZoneIx) : List NodeIx :=
  allNodes.filter (fun i => (s.nodeCfg i).isThermal && (s.nodeCfg i).segment == .room
    && (s.nodeCfg i).zone == some z)

/-- The slot bound to a candidate, or unbound. -/
def bindSlot : Option NodeIx → Slot
  | some i => Slot.boundTo i
  | none => Slot.unbound

/-! ### Entering and leaving RUN -/

/-- A zone at an entry into RUN (R12, R56, R61): STARTING with bound slots when enabled, DISABLED with
unbound slots otherwise; demand, integral, timers and temperatures start afresh. -/
def enterRunZone (c : ZoneCfg) (slots : List NodeIx) (v : ZoneRt) : ZoneRt :=
  { v with
    reg := if c.enabled then .starting else .disabled
    demand := 0
    integral := 0
    prevTemp := none
    windowTimer := none
    periodTimer := if c.enabled then some c.period else none
    zoneTemp := none
    floorTemp := none
    slot0 := if c.enabled then bindSlot slots[0]? else Slot.unbound
    slot1 := if c.enabled then bindSlot slots[1]? else Slot.unbound }

/-- A zone at a leaving of RUN (R13, R56, R61). -/
def leaveRunZone (v : ZoneRt) : ZoneRt :=
  { v with
    reg := .disabled
    demand := 0
    integral := 0
    prevTemp := none
    windowTimer := none
    periodTimer := none
    zoneTemp := none
    floorTemp := none
    slot0 := Slot.unbound
    slot1 := Slot.unbound }

/-- The Zone Regulator at an entry into RUN (R57, R61). -/
def regulatorEnterRun (s : State) : State :=
  let s' := forZones (fun z s => s.setZone z (enterRunZone (s.zoneCfg z) (slotCandidates s z) (s.zone z))) s
  { s' with runEntryAge := 0 }

/-- The Zone Regulator at a leaving of RUN (R61). -/
def regulatorLeaveRun (s : State) : State :=
  forZones (fun z s => s.setZone z (leaveRunZone (s.zone z))) s

/-! ### The regulation event -/

/-- The temperature an event works with: that of a zone with a fresh slot (R62, R63). -/
def eventTemp (c : ZoneCfg) (v : ZoneRt) : Option T16 :=
  if v.anyFresh c.sensorTimeout then v.zoneTemp else none

/-- The new state with no fresh slot (R62). -/
def staleState (c : ZoneCfg) (age : Nat) (r : RegState) : RegState :=
  match r with
  | .disabled => .disabled
  | .starting => if age < c.sensorTimeout then .starting else .sensorLost
  | .normal => .sensorLost
  | .windowOpen => .sensorLost
  | .floorHold => .sensorLost
  | .sensorLost => .sensorLost

/-- A window drop is seen between two events (R64). -/
def windowDropSeen (c : ZoneCfg) (prev : Option T16) (t : T16) : Bool :=
  c.windowDetection && (match prev with
    | some p => decide (c.windowDrop ≤ p - t)
    | none => false)

/-- The floor step (R65): FLOOR_HOLD or NORMAL. -/
def floorState (c : ZoneCfg) (v : ZoneRt) : RegState :=
  match c.floorLimit, v.floorTemp with
  | some l, some f =>
    if v.reg = .floorHold then (if f ≤ l - 16 then .normal else .floorHold)
    else if l ≤ f then .floorHold else .normal
  | _, _ => .normal

/-- The new state with a fresh slot: the window step and the floor step (R63 to R65). -/
def freshState (c : ZoneCfg) (v : ZoneRt) (t : T16) : RegState :=
  match v.reg with
  | .disabled => .disabled
  | .windowOpen => if v.windowTimer.isSome then .windowOpen else floorState c v
  | .normal => if windowDropSeen c v.prevTemp t then .windowOpen else floorState c v
  | .starting => floorState c v
  | .sensorLost => floorState c v
  | .floorHold => floorState c v

/-- The new regulation state of an event (R62 to R65). -/
def newRegState (c : ZoneCfg) (age : Nat) (v : ZoneRt) : RegState :=
  match eventTemp c v with
  | none => staleState c age v.reg
  | some t => freshState c v t

/-- The proportional term (R71). -/
def proportional (pb setpoint t : T16) : Int :=
  clamp (-1000) 1000 (Int.tdiv ((setpoint - t) * 1000) pb)

/-- An actuator of the zone that is PRESENT is QUEUED or MOVING (R72). -/
def zoneMoving (s : State) (z : ZoneIx) : Bool :=
  allNodes.any (fun i => (s.nodeCfg i).isActuator && (s.nodeCfg i).zone == some z
    && (s.node i).presence == .present && (s.node i).act.motion != .idle)

/-- Integration is held at an event with positive P (R72). -/
def integrationHeld (s : State) (z : ZoneIx) : Bool :=
  !s.pco.plantAvailable || zoneMoving s z || (s.zone z).demand == 1000

/-- The integral after an event in NORMAL (R72, R73). -/
def newIntegral (ti : Nat) (p : Int) (held : Bool) (i : Nat) : Nat :=
  if ti = 0 then 0
  else if 0 < p ∧ held = true then i
  else (clamp 0 1000 (i + Int.tdiv p ti)).toNat

/-- The demand of NORMAL (R74). -/
def normalDemand (p : Int) (i : Nat) : Nat := (clamp 0 1000 (p + i)).toNat

/-- The demand of SENSOR_LOST (R75). -/
def blindDemandOf (c : ZoneCfg) (setpoint : T16) : Nat :=
  if c.minLimit < setpoint then c.blindDemand else 0

/-- The valve target of a demand (R74). -/
def valveTargetOf (d : Nat) : Nat := (d + 5) / 10

/-- The integral as an event's computation finds it: a zone leaving STARTING has it set to 0 (R63). -/
def integralBefore (c : ZoneCfg) (v : ZoneRt) : Nat :=
  if v.reg = .starting ∧ (eventTemp c v).isSome then 0 else v.integral

/-- Demand and integral of an event, by its new state (R60). -/
def eventOutput (s : State) (z : ZoneIx) (r : RegState) : Nat × Nat :=
  let c := s.zoneCfg z
  let v := s.zone z
  let i := integralBefore c v
  match r, eventTemp c v with
  | .disabled, _ => (0, 0)
  | .normal, some t =>
    let p := proportional c.pb v.setpoint t
    let i' := newIntegral c.ti p (integrationHeld s z) i
    (normalDemand p i', i')
  | .sensorLost, _ => (blindDemandOf c v.setpoint, i)
  | _, _ => (0, i)

/-- The window timer after an event: set on entry into WINDOW_OPEN (R64), absent outside it (R66). -/
def newWindowTimer (c : ZoneCfg) (v : ZoneRt) (r : RegState) : Option Nat :=
  if r = .windowOpen then (if v.reg = .windowOpen then v.windowTimer else some c.windowHold)
  else none

/-- The lower number of the fresh slots (R78). -/
def lowerFreshSlot (timeout : Nat) (v : ZoneRt) : Fin 2 :=
  if v.slot0.fresh timeout then 0 else 1

/-- The sensor events of a transition (R78). -/
def sensorEvents (z : ZoneIx) (timeout : Nat) (v : ZoneRt) (r : RegState) (s : State) : State :=
  if r = .sensorLost ∧ v.reg ≠ .sensorLost then addEvent (.sensorLost z v.reg) s
  else if v.reg = .sensorLost ∧ r ≠ .sensorLost then
    addEvent (.sensorBack z (lowerFreshSlot timeout v)) s
  else s

/-- The regulation event of zone z as one whole operation (R59). -/
def regulate (z : ZoneIx) (s : State) : State :=
  let c := s.zoneCfg z
  let v := s.zone z
  let r := newRegState c s.runEntryAge v
  let out := eventOutput s z r
  let s1 := s.setZone z { v with
    reg := r
    demand := out.1
    integral := out.2
    windowTimer := newWindowTimer c v r
    prevTemp := eventTemp c v }
  handOverTarget z (valveTargetOf out.1) (sensorEvents z c.sensorTimeout v r s1)

/-- The period timer expires: it is re-armed and the event is taken (R56). -/
def periodExpired (z : ZoneIx) (s : State) : State :=
  regulate z (s.setZone z { s.zone z with periodTimer := some (s.zoneCfg z).period })

/-- A taken SET_REQUEST ends a window hold (R68). -/
def endWindowHold (z : ZoneIx) (s : State) : State :=
  let v := s.zone z
  if v.reg = .windowOpen then
    s.setZone z { v with reg := .normal, windowTimer := none, prevTemp := none }
  else s

/-! ### The minute tick (R58) -/

/-- A running window timer at a minute tick (R67). -/
def tickWindow (t : Option Nat) : Option Nat :=
  match t with
  | some n => if n ≤ 1 then none else some (n - 1)
  | none => none

/-- A running period timer at a minute tick: 0 is the expiry R58 takes in step 5. -/
def tickPeriod (t : Option Nat) : Option Nat := t.map (fun n => n - 1)

/-- Step 5 of R58 for one zone. -/
def expireIfDue (z : ZoneIx) (s : State) : State :=
  if (s.zone z).periodTimer = some 0 then periodExpired z s else s

/-- The Zone Regulator's handling of a minute tick, in the order of R58. -/
def tickRegulator (s : State) : State :=
  let s1 := forZones ageZone s
  let s2 := forZones (fun z s => s.setZone z { s.zone z with windowTimer := tickWindow (s.zone z).windowTimer }) s1
  let s3 := { s2 with runEntryAge := min (s2.runEntryAge + 1) 255 }
  let s4 := forZones (fun z s => s.setZone z { s.zone z with periodTimer := tickPeriod (s.zone z).periodTimer }) s3
  forZones expireIfDue s4

end Sys2Proof.Machine
end

