-- ==== Sys2Proof/Machine/Presence.lean ====
section
/-! DEFINITION. The Roll Call Controller: presence (R142, R158, R159), roll call (R160 to R165) and the
Newcomer List (R166). -/

namespace Sys2Proof.Machine

open Sys2Proof

/-! ### Presence -/

/-- A change of an actuator's presence is told to the Valve Drive Scheduler as it is made (R159). -/
def tellValves (i : NodeIx) (before after : Presence) (s : State) : State :=
  if (s.nodeCfg i).isActuator && before != after then
    match after with
    | .present => joinBus i s
    | .absent => leaveBus i s
    | .mismatch _ => leaveBus i s
    | .unknown => s
  else s

/-- The presence a frame heard on the configured segment leaves (R142). -/
def heardPresence : Presence → Presence
  | .unknown => .present
  | .present => .present
  | .absent => .present
  | .mismatch .segment => .present
  | .mismatch .role => .mismatch .role

/-- A frame of node i heard on its configured segment x (R142). -/
def heardAtHome (i : NodeIx) (x : Segment) (s : State) : State :=
  let v := s.node i
  let p := heardPresence v.presence
  let s1 := s.setNode i { v with presence := p, missCount := 0, seen := true }
  let s2 := if v.presence = .absent then addEvent (.nodeBack (s.nodeCfg i).address x) s1 else s1
  tellValves i v.presence p s2

/-- A node enters MISMATCH, or changes its cause: NODE_MISMATCH is added (R142, R163). -/
def becomeMismatch (i : NodeIx) (c : MismatchCause) (s : State) : State :=
  let v := s.node i
  if v.presence = .mismatch c then s
  else tellValves i v.presence (.mismatch c)
    (addEvent (.nodeMismatch (s.nodeCfg i).address c)
      (s.setNode i { v with presence := .mismatch c }))

/-- The source check of a known source (R142). -/
def sourceHeard (i : NodeIx) (x : Segment) (s : State) : State :=
  if (s.nodeCfg i).segment = x then heardAtHome i x s else becomeMismatch i .segment s

/-! ### The Newcomer List (R166) -/

/-- An unknown source address is recorded. -/
def recordNewcomer (a : Byte) (s : State) : State :=
  if a ∈ s.newcomers then s
  else if s.newcomers.length < 8 then { s with newcomers := s.newcomers ++ [a] }
  else { s with newcomerOverflow := true }

/-- An address now held in the Node Table leaves the list (R157, R166). -/
def dropNewcomer (a : Byte) (s : State) : State :=
  { s with newcomers := s.newcomers.filter (fun b => b != a) }

/-- The list is emptied and its flag cleared (R166). -/
def clearNewcomers (s : State) : State :=
  { s with newcomers := [], newcomerOverflow := false }

/-! ### Roll call -/

/-- Replace a segment's roll-call fields. -/
def setRoll (x : Segment) (r : Roll) (s : State) : State :=
  s.setSeg x { s.seg x with roll := r }

/-- The entry lies in group g on segment x (R160, R161). -/
def inGroup (s : State) (x : Segment) (g : Fin 8) (i : NodeIx) : Bool :=
  (s.nodeCfg i).used && (s.nodeCfg i).segment == x && groupOf (s.nodeCfg i).address == g.val

/-- The groups from a pointer onward, cyclically. -/
def groupsFrom (p : Fin 8) : List (Fin 8) :=
  [p, p + 1, p + 2, p + 3, p + 4, p + 5, p + 6, p + 7]

/-- The next group that holds a configured node of the segment (R161). -/
def nextGroup (s : State) (x : Segment) : Option (Fin 8) :=
  (groupsFrom (s.seg x).roll.pointer).find? (fun g => allNodes.any (inGroup s x g))

/-- The seen flags of a called group are cleared (R161). -/
def clearSeen (x : Segment) (g : Fin 8) (s : State) : State :=
  forNodes (fun i s => if inGroup s x g i then s.setNode i { s.node i with seen := false } else s) s

/-- The ROLL_CALL of a group (R161). -/
def rollCallFrame (s : State) (g : Fin 8) : OwnFrame := ⟨0x00#8, s.ownAddress, .rollCall g⟩

/-- The roll call of group g is placed (R161, step 5). -/
def placeRollCall (x : Segment) (g : Fin 8) (s : State) : State :=
  let s1 := pushOwn x (rollCallFrame s g) s
  clearSeen x g (setRoll x { (s1.seg x).roll with pointer := g + 1, phase := .calling, group := some g } s1)

/-- A roll-call expiry (R161, steps 1 to 5). -/
def rollExpiry (x : Segment) (s : State) : State :=
  if (s.seg x).roll.phase = .idle then
    match nextGroup s x with
    | some g => if ownRoom s x then placeRollCall x g s else s
    | none => s
  else s

/-- An interval timer runs out: it is re-armed and the expiry is taken (R161). -/
def rollTimerRunOut (x : Segment) (s : State) : State :=
  rollExpiry x (setRoll x { (s.seg x).roll with interval := s.work.system.rollInterval } s)

/-- An interval timer at a minute tick (R161). -/
def tickRoll (x : Segment) (s : State) : State :=
  if (s.seg x).roll.interval ≤ 1 then rollTimerRunOut x s
  else setRoll x { (s.seg x).roll with interval := (s.seg x).roll.interval - 1 } s

/-- The Roll Call Controller's handling of a minute tick: the two segments do not touch one another. -/
def tickRollCall (s : State) : State := tickRoll .plant (tickRoll .room s)

/-- The roll call of a segment ends: the phase is IDLE and no group is called. -/
def endRoll (x : Segment) (s : State) : State :=
  setRoll x { (s.seg x).roll with phase := .idle, group := none } s

/-- The transmission of a ROLL_CALL completes (R162). -/
def rollCallCompleted (x : Segment) (s : State) : State :=
  if (s.seg x).roll.phase = .calling then setRoll x { (s.seg x).roll with phase := .window } s else s

/-- The transmission of a ROLL_CALL is abandoned (R162). -/
def rollCallAbandoned (x : Segment) (s : State) : State :=
  if (s.seg x).roll.phase = .calling then endRoll x s else s

/-- Entry into NO_SUPPLY or STUCK ends a roll window without charge (R165). -/
def rollHealthLost (x : Segment) (s : State) : State :=
  if (s.seg x).roll.phase = .window then endRoll x s else s

/-- The role check of a roll-call answer (R163). -/
def checkRole (i : NodeIx) (code : Byte) (s : State) : State :=
  let v := s.node i
  if rdRole code = some (s.nodeCfg i).role then
    if v.presence = .mismatch .role then
      tellValves i v.presence .present (s.setNode i { v with presence := .present })
    else s
  else if v.presence = .present then becomeMismatch i .role s
  else s

/-- A ROLL_ANSWER handed over from node entry i, arrived on segment x (R163). -/
def rollAnswer (x : Segment) (i : NodeIx) (payload : List Byte) (s : State) : State :=
  match payload, (s.seg x).roll.group with
  | [code], some g =>
    if (s.seg x).roll.phase = .window ∧ groupOf (s.nodeCfg i).address = g.val then checkRole i code s
    else s
  | _, _ => s

/-- A miss is charged: at the third in a row the node becomes ABSENT (R164). -/
def chargeMiss (i : NodeIx) (s : State) : State :=
  let v := s.node i
  if 3 ≤ v.missCount + 1 then
    tellValves i v.presence .absent
      (addEvent (.nodeAbsent (s.nodeCfg i).address v.presence)
        (s.setNode i { v with missCount := 3, presence := .absent }))
  else s.setNode i { v with missCount := v.missCount + 1 }

/-- A node of the called group at the close of the window (R164). -/
def closeNode (x : Segment) (g : Fin 8) (i : NodeIx) (s : State) : State :=
  if inGroup s x g i && !(s.node i).seen && (s.node i).presence != .absent
      && (s.node i).presence != .mismatch .segment then chargeMiss i s
  else s

/-- The roll window closes (R164), the charges in rising index order (log 19). -/
def rollWindowClosed (x : Segment) (s : State) : State :=
  match (s.seg x).roll.phase, (s.seg x).roll.group with
  | .window, some g => endRoll x (forNodes (closeNode x g) s)
  | .window, none => endRoll x s
  | _, _ => s

end Sys2Proof.Machine
end

