-- ==== Sys2Proof/Machine/Resets.lean ====
section
/-! DEFINITION. Entering and leaving RUN by SET_MODE (R174, R175) and the cold and warm resets (R176,
R177). -/

namespace Sys2Proof.Machine

open Sys2Proof

/-! ### Changes of mode -/

/-- The part enters RUN by SET_MODE: the mode, MODE_CHANGED, and every block's entry into RUN (R174).
The stored mode becomes RUN with the commit (R172). -/
def enterRun (s : State) : State :=
  let s1 := addEvent (.modeChanged .run) { s with mode := .run }
  let s2 := regulatorEnterRun s1
  let s3 := coordinatorEnterRun s2
  let s4 := supervisorModeChange (seedOf s.work.plant) s3
  driveOnEntry s4

/-- The part leaves RUN by SET_MODE: the mode, MODE_CHANGED, and every block's stand-down (R175). -/
def leaveRun (s : State) : State :=
  let s1 := addEvent (.modeChanged .commission) { s with mode := .commission }
  let s2 := standDownValves s1
  let s3 := standDownBoiler s2
  let s4 := regulatorLeaveRun s3
  supervisorModeChange s.pls.question s4

/-! ### Resets -/

/-- The mode after a reset: the stored mode, unless the configuration check fails (R176). -/
def modeAfter (stored : Mode) (t : Tables) : Mode :=
  if stored = .run ∧ configCheck t = none then .run else .commission

/-- A zone's runtime record at a reset, the override kept at a warm one (R9). The setpoint and the
schedule fields are established afterwards (R10). -/
def resetZone (m : Mode) (c : ZoneCfg) (slots : List NodeIx) (o : Option Override) : ZoneRt :=
  let v := { ZoneRt.reset with override := o }
  if m = .run then enterRunZone c slots v else v

/-- Health as the supply-good line gives it at a reset (R134). -/
def healthOf (supply : Bool) : Health := if supply then .up else .noSupply

/-- The Plant Coordinator after a reset, the plant-available flag as the supervisor's reset values
give it (R100). -/
def resetCoordinator (m : Mode) (boiler : Bool) (c : PlantCfg) : Coordinator where
  burnerOn := false
  burnerTimer := c.minOff
  pump := .off
  overrunTimer := none
  demandTimer := if m = .run ∧ boiler = true then some c.demandPeriod else none
  flowPathOpen := false
  openDemand := 0
  lastFlow := 0
  plantAvailable := !boiler

/-- Every field at its reset value, the tables read back from the store and the mode decided; clock,
holiday and overrides as given. -/
def resetFields (supply : Segment → Bool) (clock : Clock) (holiday : Holiday)
    (overrides : ZoneIx → Option Override) (s : State) : State :=
  let s0 : State := { s with work := s.store }
  let m := modeAfter s.storedMode s.store
  { s0 with
    mode := m
    zones := Vector.ofFn (fun z => resetZone m (s0.zoneCfg z) (slotCandidates s0 z) (overrides z))
    nodes := Vector.replicate 48 NodeRt.reset
    clock := clock
    holiday := holiday
    runEntryAge := 0
    room := SegState.reset (healthOf (supply .room)) s.store.system.rollInterval
    plant := SegState.reset (healthOf (supply .plant)) s.store.system.rollInterval
    newcomers := []
    newcomerOverflow := false
    driveQueue := []
    nextIssue := 0
    pco := resetCoordinator m (hasBoiler s0) s.store.plant
    pls := Supervisor.fresh (hasBoiler s0) (seedOf s.store.plant)
    mrs := Responder.reset }

/-- A CONFIG_INVALID event where the stored mode is RUN and the check fails (R176). -/
def reportCheck (s : State) : State :=
  match s.storedMode, configCheck s.work with
  | .run, some f => addEvent (.configInvalid f) s
  | _, _ => s

/-- What follows the fields at a reset: the check's event, every zone's setpoint (R10), and in RUN the
targets of disabled zones' actuators (R83, R98; the derivation does nothing in COMMISSION); in this order (log 18). -/
def afterReset (s : State) : State := driveOnEntry (evaluateAllQuietly (reportCheck s))

/-- The Configuration Store with an item of the working copy written into it (R172). -/
def storeItem (item : CommitItem) (s : State) : State :=
  match item with
  | .system => { s with store := { s.store with system := s.work.system } }
  | .node i => { s with store := { s.store with nodes := s.store.nodes.set i.val (s.nodeCfg i) i.isLt } }
  | .zone z => { s with store := { s.store with zones := s.store.zones.set z.val (s.zoneCfg z) z.isLt } }
  | .level l => { s with store := { s.store with levels := s.store.levels.set l.val s.work.levels[l] l.isLt } }
  | .profile p =>
    { s with store := { s.store with profiles := s.store.profiles.set p.val s.work.profiles[p] p.isLt } }
  | .link l => { s with store := { s.store with links := s.store.links.set l.val s.work.links[l] l.isLt } }
  | .plant => { s with store := { s.store with plant := s.work.plant } }
  | .kindMap k =>
    { s with store := { s.store with kindMap := s.store.kindMap.set k.val s.work.kindMap[k] k.isLt } }
  | .mode => { s with storedMode := s.mode }

/-- The item being committed, if a commit is under way (R172). -/
def committing (s : State) : Option CommitItem :=
  match s.mrs.outstanding with
  | some r => match r.phase with
    | .committing item => some item
    | .placed => none
  | none => none

/-- A commit that a cold reset falls into leaves the old entry or the new one, whole (R172). -/
def settleStore (landed : Bool) (s : State) : State :=
  match committing s with
  | some item => if landed then storeItem item s else s
  | none => s

/-- The cold reset (R176): clock invalid, holiday inactive, no override. -/
def coldResetTo (supply : Segment → Bool) (s : State) : State :=
  afterReset (resetFields supply ⟨0, false⟩ Holiday.inactive (fun _ => none) s)

/-- The warm reset (R177): as a cold reset, with the clock, the overrides and the holiday kept. -/
def warmResetTo (supply : Segment → Bool) (s : State) : State :=
  afterReset (resetFields supply s.clock s.holiday (fun z => (s.zone z).override) s)

/-- A supply-good line as it stands at a warm reset: high on a segment that is UP or STUCK, and a free
value on one that is NO_SUPPLY (R135, R137, log 6). -/
def supplyNow (s : State) (x : Segment) : Bool :=
  match (s.seg x).health with
  | .up => true
  | .stuck => true
  | .noSupply => Config.supplyLevel (2 * s.freeCount + (if x = .room then 0 else 1))

/-- The warm reset takes effect (R177); the free-value counter advances. -/
def warmReset (supply : Segment → Bool) (s : State) : State :=
  let s' := warmResetTo supply s
  { s' with freeCount := s.freeCount + 1 }

/-- A pending warm reset takes effect as the outstanding reply ends (R177). -/
def settleReset (supply : Segment → Bool) (s : State) : State :=
  if s.mrs.warmResetPending ∧ s.mrs.outstanding = none then warmReset supply s else s

end Sys2Proof.Machine
end

