-- ==== Sys2Proof/Machine/Responder.lean ====
section
/-! DEFINITION. The Management Responder: what each operation does (R169), table writes (R3, R4, R20 to
R26, R120, R145, R156, R157, R171), and replies (R168, R170, R172). -/

namespace Sys2Proof.Machine

open Sys2Proof

/-- What carrying out a request gives: the state, the reply's result and data, what a FETCH_EVENTS
carried, and the item to commit before the reply is built. -/
structure Answer where
  state  : State
  result : Result
  data   : List Byte
  fetch  : Option FetchInfo
  commit : Option CommitItem
  deriving DecidableEq, Repr

/-- A reply without data. -/
def Answer.plain (s : State) (r : Result) : Answer := ⟨s, r, [], none, none⟩

/-- A DONE reply with data. -/
def Answer.withData (s : State) (d : List Byte) : Answer := ⟨s, .done, d, none, none⟩

/-- A DONE reply owed at the end of a commit (R172). -/
def Answer.committed (s : State) (item : CommitItem) : Answer := ⟨s, .done, [], none, some item⟩

/-! ### Accepted writes (R5, R6, R88, R120, R157) -/

/-- The working copy with another configuration of node entry i. -/
def setNodeCfg (i : NodeIx) (c : NodeCfg) (s : State) : State :=
  s.setWork { s.work with nodes := s.work.nodes.set i.val c i.isLt }

/-- The working copy with another configuration of zone z. -/
def setZoneCfg (z : ZoneIx) (c : ZoneCfg) (s : State) : State :=
  s.setWork { s.work with zones := s.work.zones.set z.val c z.isLt }

/-- Two configurations of an entry differ in address, segment, role or zone (R157). -/
def NodeCfg.moved (a b : NodeCfg) : Bool :=
  a.address != b.address || a.segment != b.segment || a.role != b.role || a.zone != b.zone

/-- An accepted NODE write or clear, with what R157 makes part of it. -/
def applyNode (i : NodeIx) (c : NodeCfg) (s : State) : State :=
  let s1 := setNodeCfg i c s
  if (s.nodeCfg i).moved c then
    let s2 := (resetEntry i s1).setNode i NodeRt.reset
    let s3 := boilerEntryChanged (hasBoiler s) s2
    if c.used then dropNewcomer c.address s3 else s3
  else s1

/-- An accepted ZONE write or clear: the temperatures are recomputed for a new sensor timeout, and the
zone is evaluated for new limits (R5, R6, R17, log 12). -/
def applyZone (z : ZoneIx) (c : ZoneCfg) (s : State) : State :=
  let old := s.zoneCfg z
  let s1 := setZoneCfg z c s
  let s2 := if old.sensorTimeout = c.sensorTimeout then s1 else recomputeZone z s1
  if old.minLimit = c.minLimit ∧ old.maxLimit = c.maxLimit then s2 else evaluate z s2

/-- An accepted PLANT write or clear: the error counter is held to the new fault threshold (R120), and
a raised drive limit lets issue go on (R87). -/
def applyPlant (c : PlantCfg) (s : State) : State :=
  let s1 := s.setWork { s.work with plant := c }
  issue (s1.setPls { s1.pls with errors := min s1.pls.errors c.faultThreshold })

/-- No other entry, and not the part itself, holds the address (R156). -/
def addressFree (s : State) (i : NodeIx) (a : Byte) : Bool :=
  a != s.ownAddress && allNodes.all (fun j => j == i || (s.nodeCfg j).address != a)

/-- A SYSTEM entry whose address no used entry holds is accepted (R171). -/
def acceptSystem (c : SystemCfg) (s : State) : Option State :=
  if (findNode s c.ownAddress).isNone then some (s.setWork { s.work with system := c }) else none

/-- A decoded NODE entry is accepted (R156). -/
def acceptNode (i : NodeIx) (c : NodeCfg) (s : State) : Option State :=
  if c.used && !addressFree s i c.address then none else some (applyNode i c s)

/-- A write's data decoded and applied; none is BAD_VALUE. -/
def writeItem (item : CommitItem) (data : List Byte) (s : State) : Option State :=
  match item with
  | .system => (rdSystem data).bind (fun c => acceptSystem c s)
  | .node i => (rdNode data).bind (fun c => acceptNode i c s)
  | .zone z => (rdZone data).map (fun c => applyZone z c s)
  | .level l => (rdLevel data).map
      (fun t => s.setWork { s.work with levels := s.work.levels.set l.val t l.isLt })
  | .profile p => (rdProfile data).map
      (fun ps => s.setWork { s.work with profiles := s.work.profiles.set p.val ps p.isLt })
  | .link l => (rdLink data).map
      (fun r => s.setWork { s.work with links := s.work.links.set l.val r l.isLt })
  | .plant => (rdPlant data).map (fun c => applyPlant c s)
  | .kindMap k => (rdKindFlags data).map
      (fun f => s.setWork { s.work with kindMap := s.work.kindMap.set k.val f k.isLt })
  | .mode => none

/-- An entry returned to its default; none is BAD_VALUE, the SYSTEM check of R171. -/
def clearItem (item : CommitItem) (s : State) : Option State :=
  match item with
  | .system => acceptSystem SystemCfg.default s
  | .node i => some (applyNode i NodeCfg.default s)
  | .zone z => some (applyZone z ZoneCfg.default s)
  | .level l => some (s.setWork
      { s.work with levels := s.work.levels.set l.val (levelDefault l) l.isLt })
  | .profile p => some (s.setWork
      { s.work with profiles := s.work.profiles.set p.val [] p.isLt })
  | .link l => some (s.setWork { s.work with links := s.work.links.set l.val .noRef l.isLt })
  | .plant => some (applyPlant PlantCfg.default s)
  | .kindMap k => some (s.setWork { s.work with
      kindMap := s.work.kindMap.set k.val (kindFlagsDefault (k.val + 1)) k.isLt })
  | .mode => none

/-! ### What RUN refuses (R171) -/

/-- A NODE write in RUN that differs from the stored entry in more than intake (R156, log 11). -/
def nodeWriteMoves (c : NodeCfg) (data : List Byte) : Bool :=
  match data with
  | [a, sg, r, z, _] =>
    if a = 0#8 then c.used else [a, sg, r, z] != (nodeCfgBytes c).take 4
  | _ => false

/-- A ZONE write in RUN that would change enabled or overrun-path (R3, log 11). -/
def zoneWriteProtected (c : ZoneCfg) (data : List Byte) : Bool :=
  data.length == 18 && (match data with
    | fl :: _ => fl.getLsbD 0 != c.enabled || fl.getLsbD 3 != c.overrunPath
    | [] => false)

/-- A PLANT write in RUN that would change the seed or the polynomial (R120, log 11). -/
def plantWriteProtected (c : PlantCfg) (data : List Byte) : Bool :=
  data.length == 21 && (data[17]? != some c.seed || data[18]? != some (polyCode c.polynomial))

/-- A write that RUN refuses (R171). -/
def writeForbidden (s : State) (item : CommitItem) (data : List Byte) : Bool :=
  s.mode == .run && (match item with
    | .system => true
    | .kindMap _ => true
    | .node i => nodeWriteMoves (s.nodeCfg i) data
    | .zone z => zoneWriteProtected (s.zoneCfg z) data
    | .plant => plantWriteProtected s.work.plant data
    | .level _ => false
    | .profile _ => false
    | .link _ => false
    | .mode => false)

/-- A clear that RUN refuses (R4, R157, R171). -/
def clearForbidden (s : State) (item : CommitItem) : Bool :=
  s.mode == .run && (match item with
    | .system => true
    | .kindMap _ => true
    | .node i => (s.nodeCfg i).used
    | .zone z => (s.zoneCfg z).enabled || (s.zoneCfg z).overrunPath
    | .plant => s.work.plant.seed != PlantCfg.default.seed
        || s.work.plant.polynomial != PlantCfg.default.polynomial
    | .level _ => false
    | .profile _ => false
    | .link _ => false
    | .mode => false)

/-! ### The operations (R169) -/

/-- The entry a request names, or the result that refuses it (R169, steps 2 and 3). -/
def namedEntry (table index : Byte) : Except Result CommitItem :=
  match rdTable table with
  | none => .error .badTable
  | some t => match entryOf t index with
    | none => .error .badIndex
    | some item => .ok item

/-- READ_ENTRY. -/
def opReadEntry (table index : Byte) (data : List Byte) (s : State) : Answer :=
  match namedEntry table index with
  | .error r => .plain s r
  | .ok item => if data = [] then .withData s (entryBytes s item) else .plain s .badValue

/-- WRITE_ENTRY. -/
def opWriteEntry (table index : Byte) (data : List Byte) (s : State) : Answer :=
  match namedEntry table index with
  | .error r => .plain s r
  | .ok item =>
    if writeForbidden s item data then .plain s .wrongMode
    else match writeItem item data s with
      | none => .plain s .badValue
      | some s' => .committed s' item

/-- CLEAR_ENTRY. -/
def opClearEntry (table index : Byte) (data : List Byte) (s : State) : Answer :=
  match namedEntry table index with
  | .error r => .plain s r
  | .ok item =>
    if clearForbidden s item then .plain s .wrongMode
    else if data ≠ [] then .plain s .badValue
    else match clearItem item s with
      | none => .plain s .badValue
      | some s' => .committed s' item

/-- READ_ZONE. -/
def opReadZone (index : Byte) (data : List Byte) (s : State) : Answer :=
  match rdFin 16 index.toNat with
  | none => .plain s .badIndex
  | some z =>
    if data = [0#8] then .withData s (zonePart0 s z)
    else if data = [1#8] then .withData s (zonePart1 s z)
    else .plain s .badValue

/-- READ_PLANT. -/
def opReadPlant (data : List Byte) (s : State) : Answer :=
  if data = [] then .withData s (plantBytes s) else .plain s .badValue

/-- Both overflow flags cleared as a READ_SEGMENTS reply is built (R149). -/
def clearOverflow (s : State) : State :=
  { s with room := { s.room with fwdOverflow := false }, plant := { s.plant with fwdOverflow := false } }

/-- READ_SEGMENTS. -/
def opReadSegments (data : List Byte) (s : State) : Answer :=
  if data = [] then .withData (clearOverflow s) (segmentsBytes s) else .plain s .badValue

/-- FETCH_EVENTS (R179). -/
def opFetchEvents (data : List Byte) (s : State) : Answer :=
  if data = [] then
    let carried := s.mrs.events.take 2
    ⟨s.setMrs { s.mrs with lateOverflow := false },
      if s.mrs.events = [] then .noData else .done,
      [boolByte s.mrs.eventOverflow, byteOf carried.length] ++ carried.flatMap eventBytes,
      some ⟨carried.length, s.mrs.eventOverflow⟩, none⟩
  else .plain s .badValue

/-- READ_NEWCOMERS. -/
def opReadNewcomers (data : List Byte) (s : State) : Answer :=
  if data = [] then .withData s (newcomerBytes s) else .plain s .badValue

/-- CLEAR_NEWCOMERS. -/
def opClearNewcomers (data : List Byte) (s : State) : Answer :=
  if data = [] then .plain (clearNewcomers s) .done else .plain s .badValue

/-- The data of a CONFIG_INVALID reply (11.4). -/
def checkFailureBytes (f : CheckFailure) : List Byte :=
  [byteOf f.check, checkSubjectByte f.subject]

/-- SET_MODE (R174, R175). -/
def opSetMode (data : List Byte) (s : State) : Answer :=
  match data with
  | [b] =>
    match rdMode b with
    | none => .plain s .badValue
    | some m =>
      if s.mode = m then .plain s .done
      else match m with
        | .commission => .committed (leaveRun s) .mode
        | .run => match configCheck s.work with
          | some f => ⟨s, .configInvalid, checkFailureBytes f, none, none⟩
          | none => .committed (enterRun s) .mode
  | _ => .plain s .badValue

/-- The record a SET_HOLIDAY sets; a count of 0 makes the holiday inactive (R52). -/
def holidayOf (l : LevelIx) (n : Nat) : Holiday :=
  if n = 0 then Holiday.inactive else ⟨true, l, n⟩

/-- SET_HOLIDAY (R52). DESIGN CHOICE, unsafe: the notices of its evaluations are placed before the reply is
offered, an order that no rule gives (log 30). -/
def opSetHoliday (data : List Byte) (s : State) : Answer :=
  match data with
  | [l, nh, nl] =>
    match rdFin 8 l.toNat with
    | none => .plain s .badValue
    | some l => .plain (evaluateAll (s.setHoliday (holidayOf l (rdU16 nh nl)))) .done
  | _ => .plain s .badValue

/-- CANCEL_OVERRIDE (R50). DESIGN CHOICE, unsafe: the notices of its evaluation are placed before the reply is
offered, an order that no rule gives (log 30). -/
def opCancelOverride (index : Byte) (data : List Byte) (s : State) : Answer :=
  match rdFin 16 index.toNat with
  | none => .plain s .badIndex
  | some z => if data = [] then .plain (removeOverride z s) .done else .plain s .badValue

/-- WARM_RESET (R177): answered DONE, with the warm reset pending. -/
def opWarmReset (data : List Byte) (s : State) : Answer :=
  if data = [] then .plain (s.setMrs { s.mrs with warmResetPending := true }) .done
  else .plain s .badValue

/-- An executed request of a known operation (R169). -/
def runOp (o : Operation) (table index : Byte) (data : List Byte) (s : State) : Answer :=
  match o with
  | .readEntry => opReadEntry table index data s
  | .writeEntry => opWriteEntry table index data s
  | .clearEntry => opClearEntry table index data s
  | .readZone => opReadZone index data s
  | .readPlant => opReadPlant data s
  | .readSegments => opReadSegments data s
  | .fetchEvents => opFetchEvents data s
  | .readNewcomers => opReadNewcomers data s
  | .clearNewcomers => opClearNewcomers data s
  | .setMode => opSetMode data s
  | .setHoliday => opSetHoliday data s
  | .cancelOverride => opCancelOverride index data s
  | .warmReset => opWarmReset data s

/-- An executed request (R169): BAD_OP for a code of no operation. -/
def execute (op table index : Byte) (data : List Byte) (s : State) : Answer :=
  match rdOp op with
  | none => .plain s .badOp
  | some o => runOp o table index data s

/-! ### Replies (R168, R170) -/

/-- Replace the outstanding reply. -/
def setOutstanding (r : Option Reply) (s : State) : State :=
  s.setMrs { s.mrs with outstanding := r }

/-- The MGMT_REPLY frame of a reply, built with the own address as it now stands (R171). -/
def replyFrame (s : State) (r : Reply) : OwnFrame :=
  ⟨r.requester, s.ownAddress, .mgmtReply r.tag r.op r.result r.data⟩

/-- A built reply is offered to the own-frame queue of the request's segment; refused, it is dropped
and the outstanding reply ends at once (R170), with the warm reset that waits for it (R177). -/
def buildReply (r : Reply) (s : State) : State :=
  if ownRoom s r.seg then
    pushOwn r.seg (replyFrame s r) (setOutstanding (some { r with phase := .placed }) s)
  else settleReset (supplyNow s) (setOutstanding none s)

/-- The reply of an answer: at once, or after the commit (R169, R172). -/
def respond (x : Segment) (src tag op : Byte) (a : Answer) : State :=
  let r : Reply := ⟨.placed, src, x, tag, op, a.result, a.data, a.fetch⟩
  match a.commit with
  | none => buildReply r a.state
  | some item => setOutstanding (some { r with phase := .committing item }) a.state

/-- The source's entry has role MANAGER (R168). -/
def isManager (s : State) (i : Option NodeIx) : Bool :=
  match i with
  | some i => (s.nodeCfg i).role == .manager
  | none => false

/-- A MGMT_REQUEST handed to the Management Responder (R168); `i` is the source's entry, none for a
source treated as a LISTENER. -/
def mgmtRequest (x : Segment) (src : Byte) (i : Option NodeIx) (payload : List Byte) (s : State) :
    State :=
  match payload with
  | tag :: op :: table :: index :: data =>
    if s.mrs.outstanding.isSome then s
    else if s.mode = .run ∧ isManager s i = false then respond x src tag op (.plain s .denied)
    else respond x src tag op (execute op table index data s)
  | _ => s

/-- The commit ends: the store holds the item, and the DONE reply is built and offered (R172). -/
def commitEnded (s : State) : State :=
  match s.mrs.outstanding with
  | none => s
  | some r => match r.phase with
    | .committing item => buildReply r (storeItem item s)
    | .placed => s

/-- The transmission of a FETCH_EVENTS reply completes (R179, R180). -/
def eventsDelivered (f : FetchInfo) (m : Responder) : Responder :=
  { m with
    events := m.events.drop f.count
    attn := !(m.events.drop f.count).isEmpty
    eventOverflow := if f.flagReported && !m.lateOverflow then false else m.eventOverflow }

/-- What the completion of the outstanding reply's transmission does to the Event Queue. -/
def deliverFetch (m : Responder) : Responder :=
  match m.outstanding with
  | some r => match r.fetch with
    | some f => eventsDelivered f m
    | none => m
  | none => m

/-- The transmission of the MGMT_REPLY completes: the outstanding reply ends (R170, R179, R177). -/
def replyCompleted (s : State) : State :=
  settleReset (supplyNow s) (setOutstanding none (s.setMrs (deliverFetch s.mrs)))

/-- The MGMT_REPLY is abandoned: the outstanding reply ends and nothing is removed (R170, R179). -/
def replyAbandoned (s : State) : State := setOutstanding none s

end Sys2Proof.Machine
end

