-- ==== Sys2Proof/Machine/Switch.lean ====
section
/-! DEFINITION. The Frame Switch: classification of an accepted frame (R139 to R144), and the reception
of a frame by a segment interface (R132, R133). -/

namespace Sys2Proof.Machine

open Sys2Proof

/-! ### Hand-off (R143) -/

/-- The role of a source; a source not in the Node Table counts as a LISTENER (R141). -/
def sourceRole (s : State) (i : Option NodeIx) : Role :=
  match i with
  | some i => (s.nodeCfg i).role
  | none => .listener

/-- The intake of a source; off for one not in the Node Table (R141). -/
def sourceIntake (s : State) (i : Option NodeIx) : Bool :=
  match i with
  | some i => (s.nodeCfg i).intake
  | none => false

/-- The Week Clock takes a TIME_SET (R37): from a MANAGER in RUN, from any source in COMMISSION, and
never with a week-minute of 10080 or above. -/
def timeTaken (s : State) (i : Option NodeIx) (w : Nat) : Bool :=
  (s.mode == .commission || sourceRole s i == .manager) && decide (w < 10080)

/-- A TIME_SET handed to the Week Clock (R37, R38). -/
def timeSet (i : Option NodeIx) (payload : List Byte) (s : State) : State :=
  match payload with
  | [h, l] =>
    if timeTaken s i (rdU16 h l) then evaluateAll (s.setClock ⟨rdU16 h l, true⟩) else s
  | _ => s

/-- The zone a SET_REQUEST from node entry i applies to, when the request is taken but for its kind:
in RUN, from a PRESENT node, for an enabled zone (R45). -/
def requestZone (s : State) (i : NodeIx) : Option ZoneIx :=
  match (s.nodeCfg i).zone with
  | some z =>
    if s.mode = .run ∧ (s.node i).presence = .present ∧ (s.zoneCfg z).enabled = true then some z
    else none
  | none => none

/-- A SET_REQUEST handed to the Setpoint Resolver, and passed on to the Zone Regulator (R45, R68). -/
def setRequest (i : NodeIx) (payload : List Byte) (s : State) : State :=
  match requestZone s i, rdSetRequest payload with
  | some z, some o => endWindowHold z (applyRequest z o s)
  | _, _ => s

/-- A VALVE_STATUS handed to the Valve Drive Scheduler (R92). -/
def valveReport (i : NodeIx) (payload : List Byte) (s : State) : State :=
  match payload with
  | [pos, m] => valveStatus i pos.toNat (rdReportedMotion m) s
  | _ => s

/-- A frame from a node of the Node Table is handed to the block that owns its kind (R143). -/
def handOffKnown (x : Segment) (i : NodeIx) (f : Frame) (s : State) : State :=
  let role := (s.nodeCfg i).role
  let intake := (s.nodeCfg i).intake
  let toPart := f.dst == s.ownAddress
  match rdKind f.kind with
  | .timeSet => timeSet (some i) f.payload s
  | .rollAnswer => if toPart then rollAnswer x i f.payload s else s
  | .tempReport =>
    if (role == .sensor || role == .roomUnit) && intake then tempReport i f.payload s else s
  | .setRequest =>
    if role == .roomUnit && intake && (toPart || f.dst == 0x00#8) then setRequest i f.payload s else s
  | .valveStatus => if role == .actuator then valveReport i f.payload s else s
  | .boilerAnswer => if role == .boilerIf then boilerAnswer i f.payload s else s
  | .mgmtRequest => if toPart then mgmtRequest x f.src (some i) f.payload s else s
  | .rollCall => s
  | .zoneNotice => s
  | .valveCmd => s
  | .boilerDemand => s
  | .mgmtReply => s
  | .foreign => s

/-- A frame from a source not in the Node Table, in COMMISSION: a LISTENER with intake off (R141,
R143). -/
def handOffUnknown (x : Segment) (f : Frame) (s : State) : State :=
  match rdKind f.kind with
  | .timeSet => timeSet none f.payload s
  | .mgmtRequest =>
    if f.dst == s.ownAddress then mgmtRequest x f.src none f.payload s else s
  | .rollAnswer => s
  | .tempReport => s
  | .setRequest => s
  | .valveStatus => s
  | .boilerAnswer => s
  | .rollCall => s
  | .zoneNotice => s
  | .valveCmd => s
  | .boilerDemand => s
  | .mgmtReply => s
  | .foreign => s

/-! ### The destination decision (R144) -/

/-- The Kind Map flag of a kind code for frames arriving on x (R145). -/
def broadcastCrosses (s : State) (x : Segment) (kind : Byte) : Bool :=
  match rdFin 63 (kind.toNat - 1) with
  | some k => match x with
    | .room => s.work.kindMap[k].roomToPlant
    | .plant => s.work.kindMap[k].plantToRoom
  | none => false

/-- ROLL_CALL and ROLL_ANSWER are never forwarded (R144). -/
def neverForwarded (k : FrameKind) : Bool := k == .rollCall || k == .rollAnswer

/-- The frame arriving on x is forwarded to the other segment (R144). -/
def forwards (s : State) (x : Segment) (f : Frame) : Bool :=
  if neverForwarded (rdKind f.kind) then false
  else if f.dst = s.ownAddress then false
  else if f.dst = 0x00#8 then broadcastCrosses s x f.kind
  else match findNode s f.dst with
    | some j => (s.nodeCfg j).segment != x
    | none => s.mode == .commission

/-- The copy of a frame is offered to the forward queue bound for the other segment, or not (R144,
R147). -/
def forward (x : Segment) (f : Frame) (s : State) : State :=
  if forwards s x f then offerForward (otherSegment x) f s else s

/-! ### Classification (R139) -/

/-- The source check of an unknown source, and what follows it (R141): in RUN the frame is dropped. -/
def classifyUnknown (x : Segment) (f : Frame) (s : State) : State :=
  let s1 := recordNewcomer f.src s
  if s.mode = .run then s1 else handOffUnknown x f (forward x f s1)

/-- The source check of a known source, and what follows it (R142): on the other segment the frame is
dropped. -/
def classifyKnown (x : Segment) (i : NodeIx) (f : Frame) (s : State) : State :=
  let s1 := sourceHeard i x s
  if (s.nodeCfg i).segment = x then handOffKnown x i f (forward x f s1) else s1

/-- The classification of an accepted frame (R139): the length check, the source check, the hand-off and
the destination decision. The last two act on different blocks and need no order. -/
def classify (x : Segment) (f : Frame) (s : State) : State :=
  if lengthAllowed (rdKind f.kind) f.payload then
    if f.src = s.ownAddress then s
    else match findNode s f.src with
      | none => classifyUnknown x f s
      | some i => classifyKnown x i f s
  else s

/-! ### Reception (R132, R133) -/

/-- The segment interface can receive: the segment is UP and the part is not transmitting on it (R133,
R134, log 7). -/
def canReceive (s : State) (x : Segment) : Bool :=
  (s.seg x).health == .up && (match (s.seg x).tx with
    | some t => t.held
    | none => true)

/-- Replace a segment's receiver. -/
def setRx (x : Segment) (r : Rx) (s : State) : State := s.setSeg x { s.seg x with rx := r }

/-- A complete frame is received on x: discarded when malformed, and otherwise accepted and classified
(R133). The line is busy until it has been free again; that it was free before, the sender answers for
(log 8). -/
def receive (x : Segment) (f : Frame) (s : State) : State :=
  if canReceive s x then
    let s1 := setRx x .waitFree s
    if f.malformed then s1 else classify x f s1
  else s

/-- Characters received as a whole frame (R132, R133); a LEN above 32, or a number of characters that is
not the frame's, leaves nothing to classify. -/
def receiveBytes (x : Segment) (bytes : List Byte) (s : State) : State :=
  match parseFrame bytes with
  | some f => receive x f s
  | none => if canReceive s x then setRx x .waitFree s else s

end Sys2Proof.Machine
end

