-- ==== Sys2Proof/Machine/Bus.lean ====
section
/-! DEFINITION. Segment health (R134 to R138, R165), transmission (R150 to R154), and the commands of the
two lines. -/

namespace Sys2Proof.Machine

open Sys2Proof

/-! ### Health -/

/-- Replace a segment's health. -/
def setHealth (x : Segment) (h : Health) (s : State) : State := s.setSeg x { s.seg x with health := h }

/-- Replace a segment's frame in transmission. -/
def setTx (x : Segment) (t : Option Tx) (s : State) : State := s.setSeg x { s.seg x with tx := t }

/-- An own frame is abandoned, and its owner told (R154). -/
def abandonOwn (x : Segment) (f : OwnFrame) (s : State) : State :=
  match f.msg with
  | .zoneNotice .. => s
  | .valveCmd i n _ => valveCmdAbandoned i n s
  | .boilerDemand .. => s
  | .rollCall _ => rollCallAbandoned x s
  | .mgmtReply .. => replyAbandoned s

/-- The frame in transmission is abandoned; a forwarded one has no owner (R154). -/
def abandonTx (x : Segment) (s : State) : State :=
  match (s.seg x).tx with
  | some t => match t.frame with
    | .own f => abandonOwn x f (setTx x none s)
    | .forwarded _ => setTx x none s
  | none => s

/-- The own-frame queue is flushed, each frame abandoned head first (R135, R154). -/
def flushOwn (x : Segment) (s : State) : State :=
  (s.seg x).own.foldl (fun s f => abandonOwn x f s) (s.setSeg x { s.seg x with own := [] })

/-- The forward queue bound for the segment is discarded; the overflow flag of that direction is set
when it held a frame (R135, R149). -/
def flushForward (x : Segment) (s : State) : State :=
  s.setSeg x { s.seg x with
    fwd := []
    fwdOverflow := (s.seg x).fwdOverflow || !(s.seg x).fwd.isEmpty }

/-- Every command of the PLANT segment that had not completed counts as abandoned (R90, R135). -/
def valvesLoseSupply (x : Segment) (s : State) : State :=
  match x with
  | .room => s
  | .plant => untransmittedLost s

/-- Entry into NO_SUPPLY from UP or STUCK (R135, R138, R165). -/
def loseSupply (x : Segment) (s : State) : State :=
  let s1 := setRx x .waitFree (setHealth x .noSupply s)
  let s2 := flushForward x (flushOwn x (abandonTx x s1))
  let s3 := addEvent (.segmentDown x .noSupply) s2
  rollHealthLost x (valvesLoseSupply x s3)

/-- The supply-good lines at a warm reset that the fall of x's line brings about: x's is low. -/
def supplyAfterFall (s : State) (x y : Segment) : Bool := if x = y then false else supplyNow s y

/-- The supply-good line of x falls (R135); a warm reset waiting for a reply abandoned here follows once
the step is whole (R177, log 16). -/
def supplyFalls (x : Segment) (s : State) : State :=
  if (s.seg x).health = .noSupply then s
  else
    let s' := loseSupply x s
    settleReset (supplyAfterFall s' x) s'

/-- The part is transmitting on the segment: a frame being sent and not held for retry (R136). -/
def transmitting (s : State) (x : Segment) : Bool :=
  match (s.seg x).tx with
  | some t => !t.held
  | none => false

/-- Entry into STUCK from UP (R136, R165): a frame held for retry and the queues are kept. -/
def becomeStuck (x : Segment) (s : State) : State :=
  if (s.seg x).health = .up ∧ transmitting s x = false then
    rollHealthLost x (addEvent (.segmentDown x .stuck) (setRx x .waitFree (setHealth x .stuck s)))
  else s

/-- The receiver at an entry into UP: the line is free after STUCK (R137). -/
def rxOnUp : Health → Rx
  | .stuck => .lineFree
  | .noSupply => .waitFree
  | .up => .waitFree

/-- Entry into UP from STUCK or NO_SUPPLY; on PLANT, issue resumes (R137, R87). -/
def becomeUp (x : Segment) (s : State) : State :=
  let h := (s.seg x).health
  if h = .up then s
  else
    let s' := addEvent (.segmentUp x h) (setRx x (rxOnUp h) (setHealth x .up s))
    match x with
    | .room => s'
    | .plant => issue s'

/-! ### Transmission -/

/-- A frame leaves OQ-P: the Valve Drive Scheduler is told, since there is room (R148). -/
def ownFrameLeft (x : Segment) (s : State) : State :=
  match x with
  | .room => s
  | .plant => issue s

/-- The interface begins sending a chosen frame; while it sends it receives nothing (R151, R133). -/
def startSending (x : Segment) (t : TxFrame) (s : State) : State :=
  setRx x .waitFree (setTx x (some ⟨t, false⟩) s)

/-- The line of an UP segment is free and the part is not transmitting: the arbiter chooses a held
frame, then an own frame, then a forward frame (R151). A frame being received has been cut short by
the free line (R132). -/
def arbitrate (x : Segment) (s : State) : State :=
  match (s.seg x).tx with
  | some t => if t.held then startSending x t.frame s else s
  | none =>
    match (s.seg x).own, (s.seg x).fwd with
    | f :: rest, _ =>
      ownFrameLeft x (startSending x (.own f) (s.setSeg x { s.seg x with own := rest }))
    | [], f :: rest => startSending x (.forwarded f) (s.setSeg x { s.seg x with fwd := rest })
    | [], [] => setRx x .lineFree s

/-- Arbitration is lost at a bit the part sends recessive (R152): the frame is held for retry, and the
interface goes on receiving the winner's frame, whose bits so far are the part's and then a
dominant one. That the winner's frame begins so, the sender answers for (log 9). -/
def loseArbitration (x : Segment) (bit : Nat) (s : State) : State :=
  match (s.seg x).tx with
  | some t =>
    if t.held = false ∧ t.frame.frame.lineBits[bit]? = some true then
      setRx x (.receiving (t.frame.frame.lineBits.take bit ++ [false]))
        (setTx x (some { t with held := true }) s)
    else s
  | none => s

/-- The completion notice of an own frame (R153). -/
def completeOwn (x : Segment) (f : OwnFrame) (s : State) : State :=
  match f.msg with
  | .zoneNotice .. => s
  | .valveCmd i n _ => valveCmdCompleted i n s
  | .boilerDemand flow release _ _ => demandCompleted flow release s
  | .rollCall _ => rollCallCompleted x s
  | .mgmtReply .. => replyCompleted s

/-- The frame being sent completes (R153): it ends, and the owner of an own frame is told. -/
def completeTx (x : Segment) (s : State) : State :=
  match (s.seg x).tx with
  | some t =>
    if t.held then s
    else
      let s' := setRx x .waitFree (setTx x none s)
      match t.frame with
      | .own f => completeOwn x f s'
      | .forwarded _ => s'
  | none => s

/-! ### Commands -/

/-- SEGMENT_NO_SUPPLY: the supply-good line of the segment falls (R135). -/
def execSegmentNoSupply (x : Segment) (s : State) : Host.Outcome State Fault Refusal :=
  .next (supplyFalls x s)

/-- SEGMENT_STUCK: the line has been dominant for 20 ms (R136). -/
def execSegmentStuck (x : Segment) (s : State) : Host.Outcome State Fault Refusal :=
  .next (becomeStuck x s)

/-- SEGMENT_HEALTH_UP: the line has been recessive for 2 ms from STUCK, or the supply-good line high
for 50 ms from NO_SUPPLY (R137). -/
def execSegmentHealthUp (x : Segment) (s : State) : Host.Outcome State Fault Refusal :=
  .next (becomeUp x s)

/-- INCOMPLETE_FRAME: the frame being received is discarded without effect (R132); the interface ignores
characters until the line is free, which it is when a free line was the cause. -/
def execIncompleteFrame (x : Segment) (cut : FrameCut) (s : State) : Host.Outcome State Fault Refusal :=
  .next (if canReceive s x then
    (match cut with
      | .freeLine => setRx x .lineFree s
      | .dominantStop => setRx x .waitFree s)
    else s)

/-- MALFORMED_FRAME: the characters of a frame that R133 discards. Characters that make a frame R133 does
not call malformed are accepted, as that rule says. -/
def execMalformedFrame (x : Segment) (bytes : List Byte) (s : State) :
    Host.Outcome State Fault Refusal :=
  .next (receiveBytes x bytes s)

/-- TRANSMIT_START: the line of the segment is free (R151). -/
def execTransmitStart (x : Segment) (s : State) : Host.Outcome State Fault Refusal :=
  .next (if (s.seg x).health = .up then arbitrate x s else s)

/-- LOST_ARBITRATION (R152). -/
def execLostArbitration (x : Segment) (bit : Nat) (s : State) : Host.Outcome State Fault Refusal :=
  .next (if (s.seg x).health = .up then loseArbitration x bit s else s)

/-- TRANSMISSION_COMPLETE (R153). -/
def execTransmissionComplete (x : Segment) (s : State) : Host.Outcome State Fault Refusal :=
  .next (if (s.seg x).health = .up then completeTx x s else s)

end Sys2Proof.Machine
end

