-- ==== Sys2Proof/Machine/FrameCommands.lean ====
section
/-! DEFINITION. The commands of frames that arrive on a segment: each a frame of its kind, received by
the segment interface (R132, R133) and classified by the Frame Switch (R139 to R144). -/

namespace Sys2Proof.Machine

open Sys2Proof

/-- TIME_SET (R37): kind 0x01. -/
def execTimeSet (x : Segment) (dst src : Byte) (payload : List Byte) (s : State) :
    Host.Outcome State Fault Refusal :=
  .next (receive x (mkFrame dst src 0x01#8 payload) s)

/-- TEMP_REPORT (R14): kind 0x08. -/
def execTempReport (x : Segment) (dst src : Byte) (payload : List Byte) (s : State) :
    Host.Outcome State Fault Refusal :=
  .next (receive x (mkFrame dst src 0x08#8 payload) s)

/-- SET_REQUEST (R45): kind 0x09. -/
def execSetRequest (x : Segment) (dst src : Byte) (payload : List Byte) (s : State) :
    Host.Outcome State Fault Refusal :=
  .next (receive x (mkFrame dst src 0x09#8 payload) s)

/-- VALVE_STATUS (R92): kind 0x11. -/
def execValveStatus (x : Segment) (dst src : Byte) (payload : List Byte) (s : State) :
    Host.Outcome State Fault Refusal :=
  .next (receive x (mkFrame dst src 0x11#8 payload) s)

/-- BOILER_ANSWER (R126): kind 0x15. -/
def execBoilerAnswer (x : Segment) (dst src : Byte) (payload : List Byte) (s : State) :
    Host.Outcome State Fault Refusal :=
  .next (receive x (mkFrame dst src 0x15#8 payload) s)

/-- ROLL_ANSWER (R163): kind 0x03. -/
def execRollAnswer (x : Segment) (dst src : Byte) (payload : List Byte) (s : State) :
    Host.Outcome State Fault Refusal :=
  .next (receive x (mkFrame dst src 0x03#8 payload) s)

/-- FOREIGN_FRAME (R144): a frame of any kind code. -/
def execForeignFrame (x : Segment) (dst src kind : Byte) (payload : List Byte) (s : State) :
    Host.Outcome State Fault Refusal :=
  .next (receive x (mkFrame dst src kind payload) s)

end Sys2Proof.Machine
end

