-- ==== Sys2Proof/Machine/MgmtCommands.lean ====
section
/-! DEFINITION. The management commands: each a MGMT_REQUEST frame (kind 0x20) that carries its
operation code, received and classified like any frame, and handed to the Management Responder when
it is addressed to the part (R143, R168, R169). -/

namespace Sys2Proof.Machine

open Sys2Proof

/-- The MGMT_REQUEST frame of a request (11.2). -/
def requestFrame (q : MgmtRequest) (op : Byte) : Frame :=
  mkFrame q.dst q.src 0x20#8 (q.tag :: op :: q.table :: q.index :: q.data)

/-- A MGMT_REQUEST frame of an operation arrives. -/
def receiveRequest (q : MgmtRequest) (op : Byte) (s : State) : State :=
  receive q.seg (requestFrame q op) s

/-- READ_ENTRY (R169). -/
def execReadEntry (q : MgmtRequest) (s : State) : Host.Outcome State Fault Refusal :=
  .next (receiveRequest q (opCode .readEntry) s)

/-- WRITE_ENTRY (R171). -/
def execWriteEntry (q : MgmtRequest) (s : State) : Host.Outcome State Fault Refusal :=
  .next (receiveRequest q (opCode .writeEntry) s)

/-- CLEAR_ENTRY (R171). -/
def execClearEntry (q : MgmtRequest) (s : State) : Host.Outcome State Fault Refusal :=
  .next (receiveRequest q (opCode .clearEntry) s)

/-- READ_ZONE (R8). -/
def execReadZone (q : MgmtRequest) (s : State) : Host.Outcome State Fault Refusal :=
  .next (receiveRequest q (opCode .readZone) s)

/-- READ_PLANT (R169). -/
def execReadPlant (q : MgmtRequest) (s : State) : Host.Outcome State Fault Refusal :=
  .next (receiveRequest q (opCode .readPlant) s)

/-- READ_SEGMENTS (R149). -/
def execReadSegments (q : MgmtRequest) (s : State) : Host.Outcome State Fault Refusal :=
  .next (receiveRequest q (opCode .readSegments) s)

/-- FETCH_EVENTS (R179). -/
def execFetchEvents (q : MgmtRequest) (s : State) : Host.Outcome State Fault Refusal :=
  .next (receiveRequest q (opCode .fetchEvents) s)

/-- READ_NEWCOMERS (R166). -/
def execReadNewcomers (q : MgmtRequest) (s : State) : Host.Outcome State Fault Refusal :=
  .next (receiveRequest q (opCode .readNewcomers) s)

/-- CLEAR_NEWCOMERS (R166). -/
def execClearNewcomers (q : MgmtRequest) (s : State) : Host.Outcome State Fault Refusal :=
  .next (receiveRequest q (opCode .clearNewcomers) s)

/-- SET_MODE_RUN (R174): a SET_MODE request; its data is the mode byte RUN, or data that names no mode
(log 20). -/
def execSetModeRun (q : MgmtRequest) (s : State) : Host.Outcome State Fault Refusal :=
  .next (receiveRequest q (opCode .setMode) s)

/-- SET_MODE_COMMISSION (R175): a SET_MODE request; its data is the mode byte COMMISSION (log 20). -/
def execSetModeCommission (q : MgmtRequest) (s : State) : Host.Outcome State Fault Refusal :=
  .next (receiveRequest q (opCode .setMode) s)

/-- SET_HOLIDAY (R52). -/
def execSetHoliday (q : MgmtRequest) (s : State) : Host.Outcome State Fault Refusal :=
  .next (receiveRequest q (opCode .setHoliday) s)

/-- CANCEL_OVERRIDE (R50). -/
def execCancelOverride (q : MgmtRequest) (s : State) : Host.Outcome State Fault Refusal :=
  .next (receiveRequest q (opCode .cancelOverride) s)

/-- WARM_RESET (R177). -/
def execWarmReset (q : MgmtRequest) (s : State) : Host.Outcome State Fault Refusal :=
  .next (receiveRequest q (opCode .warmReset) s)

/-- MGMT_REQUEST_BAD_OP (R169): an operation code that is none of the thirteen. -/
def execMgmtRequestBadOp (q : MgmtRequest) (op : Byte) (s : State) : Host.Outcome State Fault Refusal :=
  .next (receiveRequest q op s)

/-- COMMIT_END (R172). -/
def execCommitEnd (s : State) : Host.Outcome State Fault Refusal :=
  .next (commitEnded s)

end Sys2Proof.Machine
end

