-- ==== Sys2Proof/Machine/TimeCommands.lean ====
section
/-! DEFINITION. The commands of time and of reset. A command of an expiry says that the count it names
has run out; it acts when that count is running, whatever it stands at (log 1). -/

namespace Sys2Proof.Machine

open Sys2Proof

/-! ### Resets -/

/-- The levels of the two supply-good lines as a COLD_RESET carries them. -/
def supplyLines (room plant : Bool) : Segment → Bool
  | .room => room
  | .plant => plant

/-- COLD_RESET (R176), with a commit it falls into settled first (R172, log 5). -/
def execColdReset (roomSupply plantSupply landed : Bool) (s : State) :
    Host.Outcome State Fault Refusal :=
  .next (coldResetTo (supplyLines roomSupply plantSupply) (settleStore landed s))

/-- WARM_RESET_EFFECT (R177): the outstanding reply to a WARM_RESET ends. Without one pending, nothing
happens (log 28). -/
def execWarmResetEffect (s : State) : Host.Outcome State Fault Refusal :=
  .next (if s.mrs.warmResetPending then warmReset (supplyNow s) s else s)

/-! ### The minute tick (R36) -/

/-- The blocks that count minutes. -/
inductive TickBlock where
  | resolver
  | regulator
  | coordinator
  | rollCall
  deriving DecidableEq, Repr

/-- The blocks in the order a tick's operand gives (R36, log 2). -/
def blockOrder (o : TickOrder) : List TickBlock :=
  let l0 : List TickBlock := [.resolver, .regulator, .coordinator, .rollCall]
  let l1 := l0.eraseIdx o.first.val
  let l2 := l1.eraseIdx o.second.val
  let l3 := l2.eraseIdx o.third.val
  [l0.getD o.first.val .resolver, l1.getD o.second.val .resolver, l2.getD o.third.val .resolver,
    l3.getD 0 .resolver]

/-- A block's handling of the tick (R41, R58, R109 with R111, R161). -/
def tickBlock (b : TickBlock) (s : State) : State :=
  match b with
  | .resolver => tickResolver s
  | .regulator => tickRegulator s
  | .coordinator => tickCoordinator s
  | .rollCall => tickRollCall s

/-- The Week Clock advances when it is valid (R36). -/
def tickClock (c : Clock) : Clock :=
  if c.valid then { c with minute := (c.minute + 1) % 10080 } else c

/-- MINUTE_TICK: the Week Clock first, then every block that counts in minutes, each its handling as a
whole (R36). -/
def execMinuteTick (o : TickOrder) (s : State) : Host.Outcome State Fault Refusal :=
  .next ((blockOrder o).foldl (fun s b => tickBlock b s) (s.setClock (tickClock s.clock)))

/-! ### Expiries of minute counts -/

/-- HOLIDAY_END (R53): the holiday becomes inactive and every zone is evaluated. -/
def execHolidayEnd (s : State) : Host.Outcome State Fault Refusal :=
  .next (if s.holiday.active then evaluateAll (s.setHoliday Holiday.inactive) else s)

/-- The override is a TEMPORARY one. -/
def isTemporary : Option Override → Bool
  | some ⟨.temporary _, _⟩ => true
  | _ => false

/-- TEMPORARY_OVERRIDE_END (R49): the override is removed and the zone evaluated. -/
def execTemporaryOverrideEnd (z : ZoneIx) (s : State) : Host.Outcome State Fault Refusal :=
  .next (if isTemporary (s.zone z).override then removeOverride z s else s)

/-- WINDOW_TIMER_RUN_OUT (R67): the timer becomes absent; the zone stays WINDOW_OPEN. -/
def execWindowTimerRunOut (z : ZoneIx) (s : State) : Host.Outcome State Fault Refusal :=
  .next (s.setZone z { s.zone z with windowTimer := none })

/-- REGULATION_EVENT (R59): the zone's running period timer expires. -/
def execRegulationEvent (z : ZoneIx) (s : State) : Host.Outcome State Fault Refusal :=
  .next (if (s.zone z).periodTimer.isSome then periodExpired z s else s)

/-- BURNER_TIMER_RUN_OUT (R109): the timer reaches 0 and stays there. -/
def execBurnerTimerRunOut (s : State) : Host.Outcome State Fault Refusal :=
  .next (s.setPco { s.pco with burnerTimer := 0 })

/-- OVERRUN_END (R111). -/
def execOverrunEnd (s : State) : Host.Outcome State Fault Refusal :=
  .next (if s.pco.overrunTimer.isSome then overrunRunOut s else s)

/-- ROLL_CALL_EXPIRY (R161): the segment's interval timer expires. -/
def execRollCallExpiry (x : Segment) (s : State) : Host.Outcome State Fault Refusal :=
  .next (rollTimerRunOut x s)

/-! ### Expiries of second and millisecond counts -/

/-- MOTION_TIMEOUT (R91). -/
def execMotionTimeout (i : NodeIx) (s : State) : Host.Outcome State Fault Refusal :=
  .next (motionExpired i s)

/-- DEMAND_PERIOD_EXPIRY (R102). -/
def execDemandPeriodExpiry (s : State) : Host.Outcome State Fault Refusal :=
  .next (demandTimerRunOut s)

/-- The window moves to its open part (R124). -/
def openPart (w : Window) : Window := { w with part := .openPart }

/-- ANSWER_WINDOW_OPEN_PART (R124): 100 ms after opening. -/
def execAnswerWindowOpenPart (s : State) : Host.Outcome State Fault Refusal :=
  .next (s.setPls { s.pls with window := s.pls.window.map openPart })

/-- ANSWER_WINDOW_CLOSE (R124): 1,500 ms after opening, so of a window in its open part (log 24). -/
def execAnswerWindowClose (s : State) : Host.Outcome State Fault Refusal :=
  .next (match s.pls.window with
    | some w => match w.part with
      | .openPart => closeWindow w s
      | .closedPart => s
    | none => s)

/-- ROLL_WINDOW_CLOSE (R164): 400 ms after the window opened. -/
def execRollWindowClose (x : Segment) (s : State) : Host.Outcome State Fault Refusal :=
  .next (rollWindowClosed x s)

/-! ### The passing second (log 3) -/

/-- A running count of seconds, one second on; its expiry is a command of its own. -/
def secondOn (t : Option Nat) : Option Nat :=
  match t with
  | some n => some (if 1 < n then n - 1 else n)
  | none => none

/-- One second passes with no command waiting: the demand period timer and every motion timer count
down, to 1 at the least. -/
def passSecond (s : State) : State :=
  forNodes (fun i s => s.setAct i { (s.node i).act with timer := secondOn (s.node i).act.timer })
    (s.setPco { s.pco with demandTimer := secondOn s.pco.demandTimer })

end Sys2Proof.Machine
end

