-- ==== Sys2Proof/Machine/Dispatch.lean ====
section
/-! DEFINITION. One arm per command. -/

namespace Sys2Proof.Machine

open Sys2Proof

def exec (i : Instr) (s : State) : Host.Outcome State Fault Refusal :=
  match i with
  | .coldReset r p l => Sys2Proof.Machine.execColdReset r p l s
  | .warmReset q => Sys2Proof.Machine.execWarmReset q s
  | .warmResetEffect => Sys2Proof.Machine.execWarmResetEffect s
  | .segmentNoSupply x => Sys2Proof.Machine.execSegmentNoSupply x s
  | .segmentStuck x => Sys2Proof.Machine.execSegmentStuck x s
  | .segmentHealthUp x => Sys2Proof.Machine.execSegmentHealthUp x s
  | .incompleteFrame x cut => Sys2Proof.Machine.execIncompleteFrame x cut s
  | .malformedFrame x bytes => Sys2Proof.Machine.execMalformedFrame x bytes s
  | .timeSet x dst src payload => Sys2Proof.Machine.execTimeSet x dst src payload s
  | .tempReport x dst src payload => Sys2Proof.Machine.execTempReport x dst src payload s
  | .setRequest x dst src payload => Sys2Proof.Machine.execSetRequest x dst src payload s
  | .valveStatus x dst src payload => Sys2Proof.Machine.execValveStatus x dst src payload s
  | .boilerAnswer x dst src payload => Sys2Proof.Machine.execBoilerAnswer x dst src payload s
  | .rollAnswer x dst src payload => Sys2Proof.Machine.execRollAnswer x dst src payload s
  | .foreignFrame x dst src kind payload => Sys2Proof.Machine.execForeignFrame x dst src kind payload s
  | .readEntry q => Sys2Proof.Machine.execReadEntry q s
  | .writeEntry q => Sys2Proof.Machine.execWriteEntry q s
  | .clearEntry q => Sys2Proof.Machine.execClearEntry q s
  | .readZone q => Sys2Proof.Machine.execReadZone q s
  | .readPlant q => Sys2Proof.Machine.execReadPlant q s
  | .readSegments q => Sys2Proof.Machine.execReadSegments q s
  | .fetchEvents q => Sys2Proof.Machine.execFetchEvents q s
  | .readNewcomers q => Sys2Proof.Machine.execReadNewcomers q s
  | .clearNewcomers q => Sys2Proof.Machine.execClearNewcomers q s
  | .setModeRun q => Sys2Proof.Machine.execSetModeRun q s
  | .setModeCommission q => Sys2Proof.Machine.execSetModeCommission q s
  | .setHoliday q => Sys2Proof.Machine.execSetHoliday q s
  | .cancelOverride q => Sys2Proof.Machine.execCancelOverride q s
  | .commitEnd => Sys2Proof.Machine.execCommitEnd s
  | .transmitStart x => Sys2Proof.Machine.execTransmitStart x s
  | .lostArbitration x bit => Sys2Proof.Machine.execLostArbitration x bit s
  | .transmissionComplete x => Sys2Proof.Machine.execTransmissionComplete x s
  | .minuteTick o => Sys2Proof.Machine.execMinuteTick o s
  | .holidayEnd => Sys2Proof.Machine.execHolidayEnd s
  | .temporaryOverrideEnd z => Sys2Proof.Machine.execTemporaryOverrideEnd z s
  | .windowTimerRunOut z => Sys2Proof.Machine.execWindowTimerRunOut z s
  | .regulationEvent z => Sys2Proof.Machine.execRegulationEvent z s
  | .motionTimeout n => Sys2Proof.Machine.execMotionTimeout n s
  | .demandPeriodExpiry => Sys2Proof.Machine.execDemandPeriodExpiry s
  | .burnerTimerRunOut => Sys2Proof.Machine.execBurnerTimerRunOut s
  | .overrunEnd => Sys2Proof.Machine.execOverrunEnd s
  | .answerWindowOpenPart => Sys2Proof.Machine.execAnswerWindowOpenPart s
  | .answerWindowClose => Sys2Proof.Machine.execAnswerWindowClose s
  | .rollCallExpiry x => Sys2Proof.Machine.execRollCallExpiry x s
  | .rollWindowClose x => Sys2Proof.Machine.execRollWindowClose x s
  | .mgmtRequestBadOp q op => Sys2Proof.Machine.execMgmtRequestBadOp q op s

end Sys2Proof.Machine
end

