-- ==== Sys2Proof/Safety.lean ====
section
/-! DEFINITION. What a sound state of the part is: the bounds and agreements that the manual says hold
at all times, one property for each group of state; and the terms of the statements, among them what the rules
say of schedules, valve targets, resets and ticks, in words of their own. -/

namespace Sys2Proof.Machine

open Sys2Proof

/-! ### What a command leaves alone -/

/-- The zone fields the Setpoint Resolver owns (R8). -/
structure ResolverPart where
  setpoint   : T16
  source     : Source
  schedLevel : Option LevelIx
  schedFault : Option SchedFault
  override   : Option Override
  deriving DecidableEq, Repr

/-- The zone fields the Zone Regulator owns (R8). -/
structure RegulatorPart where
  reg         : RegState
  zoneTemp    : Option T16
  floorTemp   : Option T16
  demand      : Nat
  integral    : Nat
  prevTemp    : Option T16
  windowTimer : Option Nat
  periodTimer : Option Nat
  slot0       : Slot
  slot1       : Slot
  deriving DecidableEq, Repr

/-- The resolver's fields of a zone record. -/
def ZoneRt.resolverPart (v : ZoneRt) : ResolverPart :=
  ⟨v.setpoint, v.source, v.schedLevel, v.schedFault, v.override⟩

/-- The regulator's fields of a zone record. -/
def ZoneRt.regulatorPart (v : ZoneRt) : RegulatorPart :=
  ⟨v.reg, v.zoneTemp, v.floorTemp, v.demand, v.integral, v.prevTemp, v.windowTimer, v.periodTimer,
    v.slot0, v.slot1⟩

/-- The presence fields of a node entry (R158). -/
structure PresencePart where
  presence  : Presence
  missCount : Nat
  seen      : Bool
  deriving DecidableEq, Repr

/-- The presence fields of a node entry. -/
def NodeRt.presencePart (v : NodeRt) : PresencePart := ⟨v.presence, v.missCount, v.seen⟩

/-- The parts of the state that a frame names: together they are all of it. -/
inductive Field where
  | work
  | store
  | storedMode
  | mode
  | setpoints
  | regulation
  | valveTargets
  | presence
  | actuators
  | clock
  | holiday
  | runEntryAge
  | health (x : Segment)
  | rx (x : Segment)
  | tx (x : Segment)
  | own (x : Segment)
  | fwd (x : Segment)
  | fwdOverflow (x : Segment)
  | roll (x : Segment)
  | newcomers
  | driveQueue
  | nextIssue
  | pco
  | pls
  | outstanding
  | warmResetPending
  | events
  | freeCount
  | pending
  deriving DecidableEq, Repr

/-- A part of the state is the same in both states. -/
def Field.same (f : Field) (s t : State) : Prop :=
  match f with
  | .work => t.work = s.work
  | .store => t.store = s.store
  | .storedMode => t.storedMode = s.storedMode
  | .mode => t.mode = s.mode
  | .setpoints => ∀ z, (t.zone z).resolverPart = (s.zone z).resolverPart
  | .regulation => ∀ z, (t.zone z).regulatorPart = (s.zone z).regulatorPart
  | .valveTargets => ∀ z, (t.zone z).valveTarget = (s.zone z).valveTarget
  | .presence => ∀ i, (t.node i).presencePart = (s.node i).presencePart
  | .actuators => ∀ i, (t.node i).act = (s.node i).act
  | .clock => t.clock = s.clock
  | .holiday => t.holiday = s.holiday
  | .runEntryAge => t.runEntryAge = s.runEntryAge
  | .health x => (t.seg x).health = (s.seg x).health
  | .rx x => (t.seg x).rx = (s.seg x).rx
  | .tx x => (t.seg x).tx = (s.seg x).tx
  | .own x => (t.seg x).own = (s.seg x).own
  | .fwd x => (t.seg x).fwd = (s.seg x).fwd
  | .fwdOverflow x => (t.seg x).fwdOverflow = (s.seg x).fwdOverflow
  | .roll x => (t.seg x).roll = (s.seg x).roll
  | .newcomers => t.newcomers = s.newcomers ∧ t.newcomerOverflow = s.newcomerOverflow
  | .driveQueue => t.driveQueue = s.driveQueue
  | .nextIssue => t.nextIssue = s.nextIssue
  | .pco => t.pco = s.pco
  | .pls => t.pls = s.pls
  | .outstanding => t.mrs.outstanding = s.mrs.outstanding
  | .warmResetPending => t.mrs.warmResetPending = s.mrs.warmResetPending
  | .events => t.mrs.events = s.mrs.events ∧ t.mrs.eventOverflow = s.mrs.eventOverflow
      ∧ t.mrs.lateOverflow = s.mrs.lateOverflow ∧ t.mrs.attn = s.mrs.attn
  | .freeCount => t.freeCount = s.freeCount
  | .pending => t.pending = s.pending

/-- Every part of the state but the ones listed is the same in both states. -/
def Keeps (touched : List Field) (s t : State) : Prop :=
  ∀ f, f ∉ touched → f.same s t

/-! ### Configuration -/

/-- Every field of a zone configuration lies in its range (R2). -/
abbrev ZoneCfg.inRange (c : ZoneCfg) : Prop :=
  (80 ≤ c.minLimit ∧ c.minLimit ≤ 320) ∧ (c.minLimit ≤ c.maxLimit ∧ c.maxLimit ≤ 480)
    ∧ (8 ≤ c.pb ∧ c.pb ≤ 128) ∧ c.ti ≤ 255 ∧ (1 ≤ c.period ∧ c.period ≤ 15)
    ∧ (2 ≤ c.sensorTimeout ∧ c.sensorTimeout ≤ 60) ∧ c.blindDemand ≤ 1000
    ∧ c.floorLimit.all (fun l => decide (320 ≤ l) && decide (l ≤ 560)) = true
    ∧ (8 ≤ c.windowDrop ∧ c.windowDrop ≤ 64) ∧ (5 ≤ c.windowHold ∧ c.windowHold ≤ 60)

/-- Every setting of the PLANT table lies in its range (R88, R101, R105, R106, R111, R120). -/
abbrev PlantCfg.inRange (c : PlantCfg) : Prop :=
  (10 ≤ c.demandPeriod ∧ c.demandPeriod ≤ 60) ∧ (1 ≤ c.minOn ∧ c.minOn ≤ 30)
    ∧ (1 ≤ c.minOff ∧ c.minOff ≤ 30) ∧ (10 ≤ c.fireOn ∧ c.fireOn ≤ 1000) ∧ c.fireOff ≤ c.fireOn
    ∧ (320 ≤ c.baseFlow ∧ c.baseFlow ≤ 960) ∧ (c.baseFlow ≤ c.maxFlow ∧ c.maxFlow ≤ 1360)
    ∧ (10 ≤ c.flowPathMin ∧ c.flowPathMin ≤ 100) ∧ c.overrunTime ≤ 30
    ∧ (1 ≤ c.driveLimit ∧ c.driveLimit ≤ 8) ∧ (1 ≤ c.deadband ∧ c.deadband ≤ 20)
    ∧ (30 ≤ c.motionTimeout ∧ c.motionTimeout ≤ 600)
    ∧ (1 ≤ c.faultThreshold ∧ c.faultThreshold ≤ 7) ∧ (1 ≤ c.recoveryCount ∧ c.recoveryCount ≤ 15)

/-- A profile holds at most eight points, in strictly increasing minute order, each minute of a day
(R21). -/
abbrev profileSound (ps : List SwitchPoint) : Prop :=
  ps.length ≤ 8 ∧ strictlyRising ps = true ∧ ∀ p ∈ ps, p.minute ≤ 1439

/-- An unused NODE entry is the default one; a used one has an address up to 0x7E, and a zone exactly for the
roles SENSOR, ROOM_UNIT and ACTUATOR (R155). -/
abbrev NodeCfg.inRange (c : NodeCfg) : Prop :=
  (c.address = 0x00#8 → c = ⟨0x00#8, .room, .listener, none, false⟩)
    ∧ (c.address ≠ 0x00#8 → c.address.toNat ≤ 0x7E
      ∧ (c.zone.isSome = true ↔ c.role = .sensor ∨ c.role = .roomUnit ∨ c.role = .actuator))

/-- Every entry of every table lies in its range (R2, R19, R21, R155, R160, R171). -/
abbrev Tables.inRange (t : Tables) : Prop :=
  (∀ z : ZoneIx, t.zones[z].inRange) ∧ (∀ i : NodeIx, t.nodes[i].inRange) ∧ t.plant.inRange
    ∧ (∀ l : LevelIx, 80 ≤ t.levels[l] ∧ t.levels[l] ≤ 480)
    ∧ (∀ p : Fin 64, profileSound t.profiles[p])
    ∧ (1 ≤ t.system.ownAddress.toNat ∧ t.system.ownAddress.toNat ≤ 0x7E)
    ∧ (1 ≤ t.system.rollInterval ∧ t.system.rollInterval ≤ 60)

/-- The working copy and the store hold values in range. -/
abbrev ConfigSound (s : State) : Prop := s.work.inRange ∧ s.store.inRange

/-- Addresses are unique among used NODE entries, and none is the part's own (R155). -/
abbrev Tables.nodesDistinct (t : Tables) : Prop :=
  (∀ i j : NodeIx, t.nodes[i].address ≠ 0x00#8 → t.nodes[i].address = t.nodes[j].address → i = j)
    ∧ ∀ i : NodeIx, t.nodes[i].address ≠ 0x00#8 → t.nodes[i].address ≠ t.system.ownAddress

/-- An address names at most one entry, in the working copy and in the store. -/
abbrev NodesSound (s : State) : Prop := s.work.nodesDistinct ∧ s.store.nodesDistinct

/-! ### Zones -/

/-- D and I stay within 0 to 1000, and the active setpoint within the zone's limits (R8). -/
abbrev ZonesSound (s : State) : Prop :=
  ∀ z : ZoneIx, (s.zone z).demand ≤ 1000 ∧ (s.zone z).integral ≤ 1000
    ∧ (s.zoneCfg z).minLimit ≤ (s.zone z).setpoint ∧ (s.zone z).setpoint ≤ (s.zoneCfg z).maxLimit

/-! ### Temperatures and regulation, by their rules (R16, R17, R60, R61, R66) -/

/-- R16: a slot is fresh while it is valid and its age is below the zone's sensor timeout. -/
abbrev IsFresh (timeout : Nat) (c : Slot) : Prop :=
  c.valid = true ∧ c.age.any (fun a => decide (a < timeout)) = true

/-- R17: the temperatures that two slots give. The zone temperature is half the sum of two fresh air readings,
rounded down, or the one, or none; the floor temperature is the larger of the fresh floor readings, or the one, or
none. -/
def TempsAre (timeout : Nat) (c0 c1 : Slot) (zone floor : Option T16) : Prop :=
  let fresh := fun (c : Slot) (reading : Option T16) => if IsFresh timeout c then reading else none
  (match fresh c0 c0.air, fresh c1 c1.air with
    | some a, some b => ∃ m, zone = some m ∧ 2 * m ≤ a + b ∧ a + b < 2 * m + 2
    | some a, none => zone = some a
    | none, some b => zone = some b
    | none, none => zone = none)
  ∧ (match fresh c0 c0.floor, fresh c1 c1.floor with
    | some a, some b => floor = some (max a b)
    | some a, none => floor = some a
    | none, some b => floor = some b
    | none, none => floor = none)

/-- R62, R63: the temperature of a zone in which a slot is fresh, and none in any other. -/
def workingTemp (c : ZoneCfg) (v : ZoneRt) : Option T16 :=
  if IsFresh c.sensorTimeout v.slot0 ∨ IsFresh c.sensorTimeout v.slot1 then v.zoneTemp else none

/-- The temperatures are the ones of the slots as they stand (R17); a zone that is DISABLED, STARTING,
WINDOW_OPEN or FLOOR_HOLD has demand 0 (R60); a window timer runs in WINDOW_OPEN only, with 1 to 60 minutes (R66);
and in RUN a zone is DISABLED exactly when it is not enabled (R61). -/
def RegulationSound (s : State) : Prop :=
  (∀ z : ZoneIx,
    TempsAre (s.zoneCfg z).sensorTimeout (s.zone z).slot0 (s.zone z).slot1 (s.zone z).zoneTemp
      (s.zone z).floorTemp
    ∧ ((s.zone z).reg = .disabled ∨ (s.zone z).reg = .starting ∨ (s.zone z).reg = .windowOpen
        ∨ (s.zone z).reg = .floorHold → (s.zone z).demand = 0)
    ∧ ∀ n, (s.zone z).windowTimer = some n → (s.zone z).reg = .windowOpen ∧ 1 ≤ n ∧ n ≤ 60)
  ∧ (s.mode = .run → ∀ z : ZoneIx, (s.zone z).reg = .disabled ↔ (s.zoneCfg z).enabled = false)

/-! ### Queues -/

/-- A segment's queues hold at most eight frames; a NO_SUPPLY segment's queues are empty and nothing
is in transmission on it (R134, R146). -/
abbrev SegState.sound (x : SegState) : Prop :=
  x.own.length ≤ 8 ∧ x.fwd.length ≤ 8
    ∧ (x.health = .noSupply → x.own = [] ∧ x.fwd = [] ∧ x.tx = none)

/-- Both segments' queues are sound, and at most one BOILER_DEMAND waits in OQ-P (R114). -/
abbrev QueuesSound (s : State) : Prop :=
  s.room.sound ∧ s.plant.sound ∧ s.plant.own.countP (fun f => f.msg.isDemand) ≤ 1

/-- An actuator is QUEUED exactly when it has an entry in the Drive Queue, and has one at most (R86);
only a MOVING one has a pending target (R79). -/
abbrev DriveSound (s : State) : Prop :=
  (s.driveQueue.map DriveEntry.node).Nodup
    ∧ (∀ i : NodeIx, (s.node i).act.motion = .queued ↔ i ∈ s.driveQueue.map DriveEntry.node)
    ∧ ∀ i : NodeIx, (s.node i).act.motion ≠ .moving → (s.node i).act.pending = none

/-- The Event Queue holds at most sixteen records, and ATTN is high exactly while it holds one (R178,
R180). -/
abbrev EventsSound (s : State) : Prop :=
  s.mrs.events.length ≤ 16 ∧ s.mrs.attn = !s.mrs.events.isEmpty

/-- The Newcomer List holds at most eight addresses, none twice and none of the Node Table (R166). -/
abbrev NewcomersSound (s : State) : Prop :=
  s.newcomers.length ≤ 8 ∧ s.newcomers.Nodup
    ∧ ∀ i : NodeIx, (s.nodeCfg i).used = true → (s.nodeCfg i).address ∉ s.newcomers

/-! ### The plant -/

/-- The supervisor's counters stay in bounds, the question is never 0x00, the plant state is NONE
exactly when there is no BOILER_IF, and the plant-available flag is what R104 makes it (R104, R118,
R119, R121). -/
abbrev LinkSound (s : State) : Prop :=
  s.pls.errors ≤ s.work.plant.faultThreshold ∧ s.pls.good ≤ 15 ∧ s.pls.question ≠ 0#8
    ∧ (s.pls.plantState = .noBoiler ↔ hasBoiler s = false)
    ∧ s.pco.plantAvailable = plantAvailableOf s.pls

/-- A zone at rest: out of regulation, with no demand, no temperature, no running timer and both slots at
their unbound values (R11, R13, R56, R61). -/
abbrev ZoneRt.atRest (v : ZoneRt) : Prop :=
  v.reg = .disabled ∧ v.demand = 0 ∧ v.integral = 0 ∧ v.periodTimer = none ∧ v.windowTimer = none
    ∧ v.zoneTemp = none ∧ v.floorTemp = none ∧ v.prevTemp = none
    ∧ v.slot0 = ⟨none, none, none, false, none, false⟩
    ∧ v.slot1 = ⟨none, none, none, false, none, false⟩ ∧ v.valveTarget = 0

/-- In COMMISSION nothing is regulated or driven: every zone is at rest, no actuator waits or has a
pending target, the burner is off, the pump too, the demand period timer is stopped and no answer
window is open (R61, R97, R101, R115, R119). -/
abbrev CommissionSound (s : State) : Prop :=
  s.mode = .commission →
    (∀ z : ZoneIx, (s.zone z).atRest) ∧ s.driveQueue = []
      ∧ (∀ i : NodeIx, (s.node i).act.pending = none)
      ∧ s.pco.burnerOn = false ∧ s.pco.pump = .off ∧ s.pco.overrunTimer = none
      ∧ s.pco.demandTimer = none ∧ s.pls.window = none

/-! ### Replies and commits -/

/-- A table entry is the same in two sets of tables. -/
def Tables.sameAt (item : CommitItem) (a b : Tables) : Prop :=
  match item with
  | .system => a.system = b.system
  | .node i => a.nodes[i] = b.nodes[i]
  | .zone z => a.zones[z] = b.zones[z]
  | .level l => a.levels[l] = b.levels[l]
  | .profile p => a.profiles[p] = b.profiles[p]
  | .link l => a.links[l] = b.links[l]
  | .plant => a.plant = b.plant
  | .kindMap k => a.kindMap[k] = b.kindMap[k]
  | .mode => True

/-- Every other table entry is the same in two sets of tables. -/
def Tables.sameBut (item : CommitItem) (a b : Tables) : Prop :=
  ∀ other : CommitItem, other ≠ item → Tables.sameAt other a b

/-- The message is a MGMT_REPLY. -/
def isReply : OwnMsg → Bool
  | .mgmtReply .. => true
  | .zoneNotice .. => false
  | .valveCmd .. => false
  | .boilerDemand .. => false
  | .rollCall .. => false

/-- How many MGMT_REPLYs a segment holds, waiting, being sent or held for retry. -/
def repliesHeld (x : SegState) : Nat :=
  x.own.countP (fun f => isReply f.msg)
    + (match x.tx with
      | some k => match k.frame with
        | .own f => if isReply f.msg = true then 1 else 0
        | .forwarded _ => 0
      | none => 0)

/-- One MGMT_REPLY is held while the outstanding reply is PLACED, and none otherwise (R168, R170); the store
is the working copy, but for the entry being committed (R172); and a warm reset is pending only while a placed
reply is outstanding (R177). -/
abbrev CommitSound (s : State) : Prop :=
  repliesHeld s.room + repliesHeld s.plant
      = (if s.mrs.outstanding.any (fun r => decide (r.phase = .placed)) = true then 1 else 0)
    ∧ (committing s = none → s.store = s.work)
    ∧ (∀ item, committing s = some item → Tables.sameBut item s.store s.work)
    ∧ (s.mrs.warmResetPending = true →
        s.mrs.outstanding.any (fun r => decide (r.phase = .placed)) = true)

/-! ### Safe runs -/

/-- Every property above. -/
structure Sound (s : State) : Prop where
  config     : ConfigSound s
  nodes      : NodesSound s
  zones      : ZonesSound s
  regulation : RegulationSound s
  queues     : QueuesSound s
  drive      : DriveSound s
  events     : EventsSound s
  newcomers  : NewcomersSound s
  link       : LinkSound s
  commit     : CommitSound s
  commission : CommissionSound s

/-- A step is safe when it neither stops the machine nor leaves the sound states. -/
def SafeStep (s : State) : Prop :=
  ∃ t, step s = .next t ∧ Sound t

/-! ### What statements about commands speak of -/

/-- The management request a command brings, and its operation code. -/
def requestOf (c : Instr) : Option (MgmtRequest × Byte) :=
  match c with
  | .warmReset q => some (q, 0x0D#8)
  | .readEntry q => some (q, 0x01#8)
  | .writeEntry q => some (q, 0x02#8)
  | .clearEntry q => some (q, 0x03#8)
  | .readZone q => some (q, 0x04#8)
  | .readPlant q => some (q, 0x05#8)
  | .readSegments q => some (q, 0x06#8)
  | .fetchEvents q => some (q, 0x07#8)
  | .readNewcomers q => some (q, 0x08#8)
  | .clearNewcomers q => some (q, 0x09#8)
  | .setModeRun q => some (q, 0x0A#8)
  | .setModeCommission q => some (q, 0x0A#8)
  | .setHoliday q => some (q, 0x0B#8)
  | .cancelOverride q => some (q, 0x0C#8)
  | .mgmtRequestBadOp q op => some (q, op)
  | _ => none

/-- The frame a command brings, and the segment it arrives on. -/
def frameOf (c : Instr) : Option (Segment × Frame) :=
  match c with
  | .timeSet x dst src payload => some (x, mkFrame dst src 0x01#8 payload)
  | .tempReport x dst src payload => some (x, mkFrame dst src 0x08#8 payload)
  | .setRequest x dst src payload => some (x, mkFrame dst src 0x09#8 payload)
  | .valveStatus x dst src payload => some (x, mkFrame dst src 0x11#8 payload)
  | .boilerAnswer x dst src payload => some (x, mkFrame dst src 0x15#8 payload)
  | .rollAnswer x dst src payload => some (x, mkFrame dst src 0x03#8 payload)
  | .foreignFrame x dst src kind payload => some (x, mkFrame dst src kind payload)
  | c => (requestOf c).map (fun p => (p.1.seg, requestFrame p.1 p.2))

/-- The frame passes the segment interface, the length check and the check of the part's own address
(R132, R133, R140, R141). -/
abbrev Accepted (x : Segment) (f : Frame) (s : State) : Prop :=
  canReceive s x = true ∧ f.malformed = false ∧ lengthAllowed (rdKind f.kind) f.payload = true
    ∧ f.src ≠ s.ownAddress

/-- The source is configured on the segment of arrival, or is unknown to a part in COMMISSION (R141,
R142). -/
def sourcePasses (x : Segment) (a : Byte) (s : State) : Bool :=
  match findNode s a with
  | some i => (s.nodeCfg i).segment == x
  | none => s.mode == .commission

/-- The frame passes the source check too, and goes on to hand-off and forwarding (R139). -/
abbrev Admitted (x : Segment) (f : Frame) (s : State) : Prop :=
  Accepted x f s ∧ sourcePasses x f.src s = true

/-- The state the source check leaves (R141, R142): what hand-off and forwarding work on. -/
def afterSource (x : Segment) (f : Frame) (s : State) : State :=
  match findNode s f.src with
  | some i => sourceHeard i x (setRx x .waitFree s)
  | none => recordNewcomer f.src (setRx x .waitFree s)

/-- What forwarding can change, for a frame that arrived on x. -/
def copyFields (x : Segment) : List Field := [.fwd (otherSegment x), .fwdOverflow (otherSegment x)]

/-- The copy of a frame to forward joins the tail of the forward queue bound for the other segment; it is
dropped and the overflow flag set when that segment is NO_SUPPLY or the queue is full; and nothing is
done for a frame not to forward (R144, R147). -/
def Copied (x : Segment) (f : Frame) (s t : State) : Prop :=
  if forwards s x f = true then
    if (s.seg (otherSegment x)).health ≠ .noSupply ∧ (s.seg (otherSegment x)).fwd.length < 8 then
      (t.seg (otherSegment x)).fwd = (s.seg (otherSegment x)).fwd ++ [f]
        ∧ (t.seg (otherSegment x)).fwdOverflow = (s.seg (otherSegment x)).fwdOverflow
    else
      (t.seg (otherSegment x)).fwd = (s.seg (otherSegment x)).fwd
        ∧ (t.seg (otherSegment x)).fwdOverflow = true
  else
    (t.seg (otherSegment x)).fwd = (s.seg (otherSegment x)).fwd
      ∧ (t.seg (otherSegment x)).fwdOverflow = (s.seg (otherSegment x)).fwdOverflow

/-- An unknown source is recorded (R166). -/
def Recorded (a : Byte) (s t : State) : Prop :=
  if a ∈ s.newcomers then t.newcomers = s.newcomers ∧ t.newcomerOverflow = s.newcomerOverflow
  else if s.newcomers.length < 8 then
    t.newcomers = s.newcomers ++ [a] ∧ t.newcomerOverflow = s.newcomerOverflow
  else t.newcomers = s.newcomers ∧ t.newcomerOverflow = true

/-- The state a management request's hand-off works on. -/
def requestState (q : MgmtRequest) (op : Byte) (s : State) : State :=
  afterSource q.seg (requestFrame q op) s

/-- A request reaches the Management Responder and is executed (R143, R168): it is admitted, addressed to
the part, no reply is outstanding, and in RUN the source is a MANAGER. -/
abbrev Executed (q : MgmtRequest) (op : Byte) (s : State) : Prop :=
  Admitted q.seg (requestFrame q op) s ∧ q.dst = s.ownAddress ∧ s.mrs.outstanding = none
    ∧ (s.mode = .commission ∨ isManager s (findNode s q.src) = true)

/-- A reply has been offered to the own-frame queue of the request's segment, `s` being the state before: the
queue takes it and the reply is outstanding, or the queue is full or the segment NO_SUPPLY, the reply is
dropped and none is outstanding (R170). -/
def Replied (q : MgmtRequest) (op : Byte) (result : Result) (data : List Byte)
    (fetch : Option FetchInfo) (s t : State) : Prop :=
  if (s.seg q.seg).health ≠ .noSupply ∧ (s.seg q.seg).own.length < 8 then
    t.mrs.outstanding = some ⟨.placed, q.src, q.seg, q.tag, op, result, data, fetch⟩
      ∧ (t.seg q.seg).own
        = (s.seg q.seg).own ++ [⟨q.src, s.ownAddress, .mgmtReply q.tag op result data⟩]
  else t.mrs.outstanding = none ∧ (t.seg q.seg).own = (s.seg q.seg).own

/-- The reply to a request has room, or no warm reset waits for its end (R177). -/
abbrev NoResetAtRefusal (q : MgmtRequest) (s : State) : Prop :=
  ownRoom s q.seg = true ∨ s.mrs.warmResetPending = false

/-- What a reply can change. -/
def replyFields (q : MgmtRequest) : List Field := [.outstanding, .own q.seg]

/-- The result that refuses an executed request, by the checks of R169 in their order; none for a request
that is carried out. -/
def refusalOf (q : MgmtRequest) (op : Byte) (s : State) : Option Result :=
  let ifData : Option Result := if q.data = [] then none else some .badValue
  match rdOp op with
  | none => some .badOp
  | some .readEntry => match namedEntry q.table q.index with
    | .error r => some r
    | .ok _ => ifData
  | some .writeEntry => match namedEntry q.table q.index with
    | .error r => some r
    | .ok item =>
      if writeForbidden s item q.data = true then some .wrongMode
      else if writeItem item q.data s = none then some .badValue else none
  | some .clearEntry => match namedEntry q.table q.index with
    | .error r => some r
    | .ok item =>
      if clearForbidden s item = true then some .wrongMode
      else if q.data ≠ [] ∨ clearItem item s = none then some .badValue else none
  | some .readZone =>
    if 16 ≤ q.index.toNat then some .badIndex
    else if q.data = [0#8] ∨ q.data = [1#8] then none else some .badValue
  | some .cancelOverride => if 16 ≤ q.index.toNat then some .badIndex else ifData
  | some .setHoliday => match q.data with
    | [l, _, _] => if l.toNat < 8 then none else some .badValue
    | _ => some .badValue
  | some .setMode => if q.data = [0#8] ∨ q.data = [1#8] then none else some .badValue
  | some .readPlant => ifData
  | some .readSegments => ifData
  | some .fetchEvents => ifData
  | some .readNewcomers => ifData
  | some .clearNewcomers => ifData
  | some .warmReset => ifData

/-- The zone record an evaluation leaves (R39, R42, R43, R48). -/
def evaluatedZone (s : State) (z : ZoneIx) : ZoneRt :=
  let r := resolveZone z s
  let o := dropUntilNext r (s.zone z).override
  let c := candidate s z o r
  { s.zone z with
    schedLevel := r.level?
    schedFault := r.fault?
    override := o
    setpoint := clampToLimits (s.zoneCfg z) c.1
    source := c.2 }

/-- A node entry is sent the notices of zone z: its role is ROOM_UNIT, its zone z, its segment ROOM and its
presence PRESENT or UNKNOWN (R54). -/
def takesNotice (s : State) (z : ZoneIx) (i : NodeIx) : Bool :=
  decide ((s.nodeCfg i).address ≠ 0x00#8 ∧ (s.nodeCfg i).role = .roomUnit ∧ (s.nodeCfg i).zone = some z
    ∧ (s.nodeCfg i).segment = .room
    ∧ ((s.node i).presence = .present ∨ (s.node i).presence = .unknown))

/-- The notices of zone z, in rising index order (R54). -/
def noticesOf (s : State) (z : ZoneIx) : List OwnFrame :=
  ((List.finRange 48).filter (takesNotice s z)).map (fun i => ⟨(s.nodeCfg i).address, s.ownAddress,
    .zoneNotice z (s.zone z).setpoint (s.zone z).source (s.zone z).zoneTemp⟩)

/-- What an evaluation can change. -/
def evaluationFields : List Field := [.setpoints, .events, .own .room]

/-- What the Valve Drive Scheduler can change when it issues. -/
def issueFields : List Field := [.actuators, .driveQueue, .nextIssue, .own .plant]

/-- What an accepted write or clear of an entry can change before its reply is due (R5, R6, R17, R87,
R120, R157, R171). -/
def writeFields (item : CommitItem) : List Field :=
  match item with
  | .node _ => [.work, .outstanding, .presence, .actuators, .driveQueue, .pls, .pco, .newcomers]
  | .zone _ => [.work, .outstanding, .regulation, .setpoints, .events, .own .room]
  | .plant => [.work, .outstanding, .pls, .actuators, .driveQueue, .nextIssue, .own .plant]
  | .system => [.work, .outstanding]
  | .level _ => [.work, .outstanding]
  | .profile _ => [.work, .outstanding]
  | .link _ => [.work, .outstanding]
  | .kindMap _ => [.work, .outstanding]
  | .mode => [.work, .outstanding]

/-- Data of a write that READ_ENTRY returns byte for byte: not an unused NODE entry, and target 0 with a
NONE reference (R25, R156). -/
def canonicalData (item : CommitItem) (data : List Byte) : Bool :=
  match item with
  | .node _ => data[0]? != some 0#8
  | .zone _ => data[6]? != some 0#8 || data[7]? == some 0#8
  | .link _ => data[0]? != some 0#8 || data[1]? == some 0#8
  | .system => true
  | .level _ => true
  | .profile _ => true
  | .plant => true
  | .kindMap _ => true
  | .mode => true

/-- The supervisor's fields after a fault is charged (R129, R130). -/
def ChargedFrom (threshold : Nat) (p p' : Supervisor) : Prop :=
  p'.errors = min (p.errors + 1) threshold ∧ p'.good = 0 ∧ p'.question = p.question
    ∧ (if p.plantState = .ok ∧ p'.errors = threshold then
        p'.plantState = .fault ∧ p'.status = none ∧ p'.actualFlow = none
      else p'.plantState = p.plantState ∧ p'.status = p.status ∧ p'.actualFlow = p.actualFlow)

/-- The coordinator's fields are unchanged but for the plant-available flag, which is as R104 has it. -/
def FlagRefreshed (s t : State) : Prop :=
  t.pco = { s.pco with plantAvailable := plantAvailableOf t.pls }

/-- A relation taken along a list: each member acts on the state that the one before it left. -/
def Along {α : Type} (r : α → State → State → Prop) : List α → State → State → Prop
  | [], s, t => t = s
  | a :: l, s, t => ∃ u, r a s u ∧ Along r l u t

/-! ### Schedule resolution and precedence, by their rules (R27 to R31, R39, R42, R43, R48) -/

/-- R28: from one reference and pending-offset flag, a number of links followed lead to another. -/
inductive Reaches (links : Vector SchedRef 16) : Nat → SchedRef → Bool → SchedRef → Bool → Prop where
  | here (ref : SchedRef) (flag : Bool) : Reaches links 0 ref flag ref flag
  | linked {n : Nat} {l : Fin 16} {flag : Bool} {last : SchedRef} {flag' : Bool} :
      Reaches links n links[l] flag last flag' → Reaches links (n + 1) (.linked l) flag last flag'
  | linkedDay {n : Nat} {l : Fin 16} {flag : Bool} {last : SchedRef} {flag' : Bool} :
      Reaches links n links[l] true last flag' → Reaches links (n + 1) (.linkedDayIndexed l) flag last flag'

/-- R28: DIRECT, DAY_INDEXED and NONE end the walk. -/
abbrev EndsWalk (ref : SchedRef) : Prop :=
  ∀ l : Fin 16, ref ≠ .linked l ∧ ref ≠ .linkedDayIndexed l

/-- R29: the profile number of a final reference on day d. -/
inductive NamesProfile (d : Nat) : SchedRef → Bool → Nat → Prop where
  | direct (p : Fin 64) : NamesProfile d (.direct p) false p.val
  | directOffset (p : Fin 64) : NamesProfile d (.direct p) true (p.val + d)
  | dayIndexed (p : Fin 64) (flag : Bool) : NamesProfile d (.dayIndexed p) flag (p.val + d)

/-- R31: the outcome of the carry, d being the previous day. -/
inductive Carries (t : Tables) (d : Nat) (ref : SchedRef) (flag : Bool) : Resolution → Prop where
  | range {n : Nat} : NamesProfile d ref flag n → 63 < n → Carries t d ref flag (.fault .range)
  | empty {n : Fin 64} : NamesProfile d ref flag n.val → t.profiles[n] = [] →
      Carries t d ref flag (.fault .emptyProfile)
  | last {n : Fin 64} {before : List SwitchPoint} {p : SwitchPoint} :
      NamesProfile d ref flag n.val → t.profiles[n] = before ++ [p] →
      Carries t d ref flag (.level p.level)

/-- R29 and R30: the outcome of a final reference on day d at minute of day m. -/
inductive Selects (t : Tables) (d m : Nat) (ref : SchedRef) (flag : Bool) : Resolution → Prop where
  | noSchedule : ref = .noRef → Selects t d m ref flag .noSchedule
  | range {n : Nat} : NamesProfile d ref flag n → 63 < n → Selects t d m ref flag (.fault .range)
  | empty {n : Fin 64} : NamesProfile d ref flag n.val → t.profiles[n] = [] →
      Selects t d m ref flag (.fault .emptyProfile)
  | inForce {n : Fin 64} {before after : List SwitchPoint} {p : SwitchPoint} :
      NamesProfile d ref flag n.val → t.profiles[n] = before ++ p :: after → p.minute ≤ m →
      (∀ q ∈ after, m < q.minute) → Selects t d m ref flag (.level p.level)
  | carried {n : Fin 64} {r : Resolution} :
      NamesProfile d ref flag n.val → t.profiles[n] ≠ [] → (∀ q ∈ t.profiles[n], m < q.minute) →
      Carries t ((d + 6) % 7) ref flag r → Selects t d m ref flag r

/-- R27: the outcome of the resolution of a zone's reference. -/
inductive Resolves (t : Tables) (c : Clock) (ref : SchedRef) : Resolution → Prop where
  | clockInvalid : c.valid = false → Resolves t c ref .noSchedule
  | walked {n : Nat} {last : SchedRef} {flag : Bool} {r : Resolution} : c.valid = true → n ≤ 4 →
      Reaches t.links n ref false last flag → EndsWalk last →
      Selects t (c.minute / 1440) (c.minute % 1440) last flag r → Resolves t c ref r
  | tooDeep : c.valid = true →
      (∀ n last flag, n ≤ 4 → Reaches t.links n ref false last flag → ¬EndsWalk last) →
      Resolves t c ref (.fault .chainTooDeep)

/-- R42: candidate and source, by the first line of its table that applies: the enabled field, the override
record, the holiday active for an eligible zone, and the outcome of the resolution. -/
def precedence (c : ZoneCfg) (levels : Vector T16 8) (h : Holiday) (o : Option Override)
    (r : Resolution) : T16 × Source :=
  match c.enabled, o, h.active && c.holidayEligible, r with
  | false, _, _, _ => (c.minLimit, .default)
  | true, some o, _, _ => (o.setpoint, .override)
  | true, none, true, _ => (levels[h.level], .holiday)
  | true, none, false, .level l => (levels[l], .schedule)
  | true, none, false, .fault _ => (levels[(0 : LevelIx)], .fallback)
  | true, none, false, .noSchedule => (levels[c.defaultLevel], .default)

/-- The resolver's fields of a zone after steps 1 to 4 of an evaluation whose resolution ended in r, the
override record having held o (R32, R39, R42, R43, R48). -/
def SettledBy (c : ZoneCfg) (levels : Vector T16 8) (h : Holiday) (o : Option Override)
    (r : Resolution) (v : ResolverPart) : Prop :=
  v.schedLevel = (match r with
    | .level l => some l
    | .noSchedule => none
    | .fault _ => none)
  ∧ v.schedFault = (match r with
    | .level _ => none
    | .noSchedule => none
    | .fault k => some k)
  ∧ (∀ l sp, o = some ⟨.untilNext l, sp⟩ → v.override = (if r = .level l then o else none))
  ∧ ((∀ l sp, o ≠ some ⟨.untilNext l, sp⟩) → v.override = o)
  ∧ (let p := precedence c levels h v.override r
    v.source = p.2
      ∧ v.setpoint = (if p.1 < c.minLimit then c.minLimit
        else if c.maxLimit < p.1 then c.maxLimit else p.1))

/-- R39: the evaluation of zone z. Its record is settled by the resolution; entry into a fault kind adds
SCHEDULE_FAULT (R32); a change of setpoint or source appends the zone's notices to OQ-R, in rising index
order as far as there is room (R54, R148); every other zone stays. -/
def Evaluated (z : ZoneIx) (s t : State) : Prop :=
  (∃ r, Resolves s.work s.clock (s.zoneCfg z).schedule r
    ∧ SettledBy (s.zoneCfg z) s.work.levels s.holiday (s.zone z).override r (t.zone z).resolverPart)
  ∧ (t.zone z).regulatorPart = (s.zone z).regulatorPart
  ∧ (t.zone z).valveTarget = (s.zone z).valveTarget
  ∧ (∀ y, y ≠ z → t.zone y = s.zone y)
  ∧ t.room.own = s.room.own
    ++ (if ((t.zone z).setpoint ≠ (s.zone z).setpoint ∨ (t.zone z).source ≠ (s.zone z).source)
          ∧ s.room.health ≠ .noSupply then
        (noticesOf t z).take (8 - s.room.own.length) else [])
  ∧ t.mrs = (match (t.zone z).schedFault with
    | some k => if (s.zone z).schedFault = some k then s else addEvent (.scheduleFault z k) s
    | none => s).mrs
  ∧ Keeps evaluationFields s t

/-! ### Valve targets and their issue, by their rules (R83, R85, R87) -/

/-- One actuator's fields are the ones given, and every other's are unchanged. -/
def ActSet (i : NodeIx) (a : Actuator) (s t : State) : Prop :=
  (t.node i).act = a ∧ ∀ j, j ≠ i → (t.node j).act = (s.node j).act

/-- R87: the conditions of an issue, but for the Drive Queue's entry. -/
abbrev IssueAllowed (s : State) : Prop :=
  s.mode = .run
    ∧ (List.finRange 48).countP (fun i => decide ((s.node i).act.motion = .moving))
      < s.work.plant.driveLimit
    ∧ s.plant.own.length < 8 ∧ s.plant.health = .up

/-- R87: the head entry leaves the Drive Queue, its VALVE_CMD joins OQ-P, and its actuator becomes MOVING
with its timer absent, the target as last commanded one and no pending target (issue numbers by log 10). -/
def HeadIssued (e : DriveEntry) (s t : State) : Prop :=
  s.driveQueue = e :: t.driveQueue
    ∧ t.plant.own = s.plant.own
      ++ [⟨(s.nodeCfg e.node).address, s.ownAddress, .valveCmd e.node s.nextIssue e.target⟩]
    ∧ ActSet e.node { (s.node e.node).act with
        motion := .moving, timer := none, lastCmd := some e.target, pending := none
        lastIssue := some s.nextIssue } s t
    ∧ t.nextIssue = s.nextIssue + 1
    ∧ Keeps issueFields s t

/-- R87: heads are issued, one after the other, until the Drive Queue is empty or a condition fails. -/
inductive Issued : State → State → Prop where
  | done {s : State} : s.driveQueue = [] ∨ ¬IssueAllowed s → Issued s s
  | next {s u t : State} {e : DriveEntry} :
      IssueAllowed s → HeadIssued e s u → Issued u t → Issued s t

/-- One actuator's fields and the Drive Queue become the ones given and nothing else changes; then heads are
issued as R87 allows. -/
def ActThenIssued (i : NodeIx) (a : Actuator) (queue : List DriveEntry) (s t : State) : Prop :=
  ∃ u, u.driveQueue = queue ∧ ActSet i a s u ∧ Keeps [.actuators, .driveQueue] s u ∧ Issued u t

/-- R96: an actuator made ABSENT or MISMATCH leaves the Drive Queue and takes its reset values but for its
fault; a slot it held is free for the next issue. -/
def LeftBus (i : NodeIx) (s t : State) : Prop :=
  ActThenIssued i ⟨none, none, none, .idle, none, (s.node i).act.fault, none⟩
    (s.driveQueue.filter (fun e => decide (e.node ≠ i))) s t

/-- R85: a derived target is placed by its actuator's motion, its worth judged by R84 against the last
commanded target; what joins the Drive Queue is issued as R87 allows. -/
def TargetPlaced (i : NodeIx) (target : Nat) (s t : State) : Prop :=
  let a := (s.node i).act
  let worth := worthSending s.work.plant.deadband a.lastCmd target = true
  match a.motion with
  | .idle =>
    (worth → ActThenIssued i { a with motion := .queued } (s.driveQueue ++ [⟨i, target⟩]) s t)
    ∧ (¬worth → t = s)
  | .queued =>
    (worth → t.driveQueue = s.driveQueue.map (fun e => if e.node = i then ⟨i, target⟩ else e)
      ∧ Keeps [.driveQueue] s t)
    ∧ (¬worth → t.driveQueue = s.driveQueue.filter (fun e => decide (e.node ≠ i))
      ∧ ActSet i { a with motion := .idle } s t ∧ Keeps [.actuators, .driveQueue] s t)
  | .moving => ActSet i { a with pending := some target } s t ∧ Keeps [.actuators] s t

/-- R83: a target is derived in RUN for an actuator of the PLANT segment (R79) that is PRESENT or
UNKNOWN. -/
abbrev TakesTarget (s : State) (i : NodeIx) : Prop :=
  s.mode = .run ∧ (s.nodeCfg i).address ≠ 0x00#8 ∧ (s.nodeCfg i).role = .actuator
    ∧ (s.nodeCfg i).segment = .plant
    ∧ ((s.node i).presence = .present ∨ (s.node i).presence = .unknown)

/-- R83: what a cause that concerns some zones does with one node entry. The target is the zone valve
target, and in PUMP_OVERRUN at least the flow-path minimum for an overrun-path zone. -/
def TargetDerived (concerned : ZoneIx → Prop) (i : NodeIx) (s t : State) : Prop :=
  (∀ z, (s.nodeCfg i).zone = some z → concerned z → TakesTarget s i →
    TargetPlaced i (if (s.zoneCfg z).overrunPath = true ∧ s.pco.pump = .overrun then
        max (s.zone z).valveTarget s.work.plant.flowPathMin else (s.zone z).valveTarget) s t)
  ∧ ((∀ z, (s.nodeCfg i).zone = some z → concerned z → ¬TakesTarget s i) → t = s)

/-- R83: targets for every actuator of the zones concerned, in rising node-table index order. -/
def TargetsDerived (concerned : ZoneIx → Prop) (s t : State) : Prop :=
  Along (TargetDerived concerned) (List.finRange 48) s t

/-- R83, R98: what an entry into RUN does with the valves: targets for the actuators of disabled zones,
then issue as R87 allows. -/
def EntryDriven (s t : State) : Prop :=
  ∃ u, TargetsDerived (fun z => (s.zoneCfg z).enabled = false) s u ∧ Issued u t

/-- R83, fourth cause: an actuator that has become PRESENT is given its target when its zone is disabled. -/
def JoinedBus (i : NodeIx) (s t : State) : Prop :=
  TargetDerived (fun z => (s.zoneCfg z).enabled = false) i s t

/-- After changes to the listed parts of s alone, the scheduler does what the relation says, and nothing
else happens: the state between has every other part from s, and all but the scheduler's fields from t. -/
def ThenValves (touched : List Field) (r : State → State → Prop) (s t : State) : Prop :=
  ∃ u, Keeps touched s u ∧ Keeps issueFields u t ∧ r u t

/-! ### Actuators of a zone and groups of nodes, by their rules (R72, R161) -/

/-- R72: an actuator of the zone that is PRESENT is QUEUED or MOVING. -/
abbrev ActuatorMoves (s : State) (z : ZoneIx) : Prop :=
  ∃ i : NodeIx, (s.nodeCfg i).address ≠ 0x00#8 ∧ (s.nodeCfg i).role = .actuator
    ∧ (s.nodeCfg i).zone = some z ∧ (s.node i).presence = .present
    ∧ ((s.node i).act.motion = .queued ∨ (s.node i).act.motion = .moving)

/-- R160: the used entry i is configured on segment x and its address lies in group g. -/
abbrev GroupHolds (s : State) (x : Segment) (g : Fin 8) (i : NodeIx) : Prop :=
  (s.nodeCfg i).address ≠ 0x00#8 ∧ (s.nodeCfg i).segment = x
    ∧ (s.nodeCfg i).address.toNat / 16 = g.val

/-- R161, step 2: from the pointer onward, cyclically, g is the first group that holds an entry. -/
abbrev GroupNext (s : State) (x : Segment) (g : Fin 8) : Prop :=
  ∃ k : Fin 8, g = (s.seg x).roll.pointer + k ∧ (∃ i, GroupHolds s x g i)
    ∧ ∀ j : Fin 8, j < k → ¬∃ i, GroupHolds s x ((s.seg x).roll.pointer + j) i

/-! ### The flow path and the configuration check, by their rules (R103, R105, R110, R114, R173) -/

/-- R103: the actuator of entry i, in the enabled zone z, holds the flow path open. -/
def HoldsOpen (s : State) (i : NodeIx) (z : ZoneIx) : Prop :=
  (s.nodeCfg i).address ≠ 0x00#8 ∧ (s.nodeCfg i).role = .actuator ∧ (s.nodeCfg i).zone = some z
    ∧ (s.zoneCfg z).enabled = true ∧ (s.node i).presence = .present
    ∧ ∃ p, (s.node i).act.confirmed = some p ∧ s.work.plant.flowPathMin ≤ p

/-- R103: a flow path and an open demand are the ones of the state. -/
def PathFound (s : State) (isOpen : Bool) (demand : Nat) : Prop :=
  (isOpen = true ↔ ∃ i z, HoldsOpen s i z)
    ∧ (∀ i z, HoldsOpen s i z → (s.zone z).demand ≤ demand)
    ∧ (demand = 0 ∨ ∃ i z, HoldsOpen s i z ∧ (s.zone z).demand = demand)

/-- R105: F is the base flow and the open demand's share of the span, rounded down. -/
def FlowFor (c : PlantCfg) (demand : Nat) (flow : T16) : Prop :=
  (flow - c.baseFlow) * 1000 ≤ demand * (c.maxFlow - c.baseFlow)
    ∧ demand * (c.maxFlow - c.baseFlow) < (flow - c.baseFlow + 1) * 1000

/-- R114: a BOILER_DEMAND replaces the one that waits in OQ-P, else joins its tail, else is not placed. -/
def DemandPlaced (f : OwnFrame) (own own' : List OwnFrame) : Prop :=
  (∃ before g after, own = before ++ g :: after ∧ g.msg.isDemand = true
    ∧ (∀ e ∈ before, e.msg.isDemand = false) ∧ own' = before ++ f :: after)
  ∨ ((∀ e ∈ own, e.msg.isDemand = false)
    ∧ own' = (if own.length < 8 then own ++ [f] else own))

/-- R102, R112 to R114: what a demand period expiry does beside its decisions, which t holds. The pump
having entered or left PUMP_OVERRUN, the targets of overrun-path zones' actuators are derived; then (log 13) the
BOILER_DEMAND is placed, while PLANT is UP and there is a BOILER_IF. -/
def ExpiryOrdered (s t : State) : Prop :=
  ∃ u v, Keeps [.pco] s u
    ∧ u.pco = { t.pco with lastFlow := s.pco.lastFlow, plantAvailable := s.pco.plantAvailable }
    ∧ (¬(s.pco.pump = .overrun ↔ t.pco.pump = .overrun) →
      TargetsDerived (fun z => (s.zoneCfg z).overrunPath = true) u v)
    ∧ ((s.pco.pump = .overrun ↔ t.pco.pump = .overrun) → v = u)
    ∧ (∀ i, findBoiler s = some i → s.plant.health = .up →
      DemandPlaced ⟨(s.nodeCfg i).address, s.ownAddress,
        .boilerDemand t.pco.lastFlow t.pco.burnerOn (decide (t.pco.pump ≠ .off)) s.pls.question⟩
        v.plant.own t.plant.own)
    ∧ (findBoiler s = none ∨ s.plant.health ≠ .up →
      t.plant.own = v.plant.own ∧ t.pco.lastFlow = s.pco.lastFlow)
    ∧ Keeps [.own .plant, .pco, .pls, .events] v t

/-- The used node entries that meet a test, in rising index order. -/
def usedNodes (t : Tables) (p : NodeCfg → Bool) : List NodeCfg :=
  t.nodes.toList.filter (fun c => decide (c.address ≠ 0x00#8) && p c)

/-- The role is SENSOR or ROOM_UNIT. -/
def isSensing (c : NodeCfg) : Bool := decide (c.role = .sensor ∨ c.role = .roomUnit)

/-- R173: every failure of the six checks, in the order in which they are applied and name their
subjects. -/
def checkFailures (t : Tables) : List CheckFailure :=
  let boilers := usedNodes t (fun c => decide (c.role = .boilerIf))
  let inZone := fun (p : NodeCfg → Bool) (x : Segment) (z : ZoneIx) =>
    (usedNodes t (fun c => p c && decide (c.segment = x ∧ c.zone = some z))).length
  let drives := fun c : NodeCfg => decide (c.role = .actuator)
  let zones := (List.finRange 16).filter (fun z => t.zones[z].enabled)
  (boilers.drop 1).map (fun c => ⟨1, .node c.address⟩)
    ++ (boilers.filter (fun c => decide (c.segment = .room))).map (fun c => ⟨2, .node c.address⟩)
    ++ (zones.filter (fun z => decide (inZone isSensing .room z < 1 ∨ 2 < inZone isSensing .room z))).map
      (fun z => ⟨3, .zone z⟩)
    ++ (zones.filter (fun z => decide (inZone drives .plant z < 1 ∨ 4 < inZone drives .plant z))).map
      (fun z => ⟨4, .zone z⟩)
    ++ (usedNodes t (fun c => decide (∃ z ∈ zones, c.zone = some z)
        && (isSensing c && decide (c.segment = .plant) || drives c && decide (c.segment = .room)))).map
      (fun c => ⟨5, .node c.address⟩)
    ++ (if boilers ≠ [] ∧ 0 < t.plant.overrunTime ∧ ∀ z ∈ zones, t.zones[z].overrunPath = false then
      [⟨6, .nothing⟩] else [])

/-! ### Entries into RUN and resets, by their rules -/

/-- R12: a slot as it is bound, or left unbound. -/
def freshSlot (bound : Option NodeIx) : Slot := ⟨bound, none, none, false, none, false⟩

/-- R12: the candidate nodes of zone z's slots, in rising node-table index. -/
def slotNodes (t : Tables) (z : ZoneIx) : List NodeIx :=
  (List.finRange 48).filter (fun i => decide (t.nodes[i].address ≠ 0x00#8) && isSensing t.nodes[i]
    && decide (t.nodes[i].segment = .room ∧ t.nodes[i].zone = some z))

/-- R9, R12, R56, R61: the regulator's fields of a zone as an entry into RUN starts them for an enabled
zone (`on`), and as they stand for a disabled one and in COMMISSION. -/
def startedPart (on : Bool) (c : ZoneCfg) (nodes : List NodeIx) : RegulatorPart where
  reg := if on then .starting else .disabled
  zoneTemp := none
  floorTemp := none
  demand := 0
  integral := 0
  prevTemp := none
  windowTimer := none
  periodTimer := if on then some c.period else none
  slot0 := freshSlot (if on then nodes[0]? else none)
  slot1 := freshSlot (if on then nodes[1]? else none)

/-- The events a reset raises, in their order: CONFIG_INVALID where the stored mode is RUN and a check fails
(R176), then SCHEDULE_FAULT for every zone left with a fault, in rising zone order (R10, log 18). -/
def resetEvents (t : State) : List EventBody :=
  (if t.storedMode = .run then ((checkFailures t.work).head?.map EventBody.configInvalid).toList else [])
    ++ (List.finRange 16).filterMap (fun z => (t.zone z).schedFault.map (EventBody.scheduleFault z))

/-- What every reset leaves (R9, R10, R80, R98, R100, R119, R134, R146, R158, R160, R166, R167, R176,
R180), the zones' override records having been taken as given. -/
def ResetDone (supply : Segment → Bool) (overrides : ZoneIx → Option Override) (t : State) : Prop :=
  t.work = t.store
    ∧ t.mode = (if t.storedMode = .run ∧ checkFailures t.store = [] then .run else .commission)
    ∧ (∀ z : ZoneIx, (t.zone z).regulatorPart
          = startedPart (decide (t.mode = .run) && (t.zoneCfg z).enabled) (t.zoneCfg z)
            (slotNodes t.work z)
        ∧ (t.zone z).valveTarget = 0)
    ∧ (∀ z : ZoneIx, ∃ r, Resolves t.work t.clock (t.zoneCfg z).schedule r
        ∧ SettledBy (t.zoneCfg z) t.work.levels t.holiday (overrides z) r (t.zone z).resolverPart)
    ∧ (∀ i : NodeIx, (t.node i).presencePart = ⟨.unknown, 0, false⟩)
    ∧ (∃ u, (∀ i : NodeIx, (u.node i).act = ⟨none, none, none, .idle, none, none, none⟩)
        ∧ u.driveQueue = [] ∧ u.plant.own = [] ∧ u.nextIssue = 0 ∧ Keeps issueFields u t
        ∧ EntryDriven u t)
    ∧ (t.mode = .commission → t.driveQueue = [] ∧ t.plant.own = []
        ∧ ∀ i : NodeIx, (t.node i).act = ⟨none, none, none, .idle, none, none, none⟩)
    ∧ (∀ x : Segment, (t.seg x).health = (if supply x = true then .up else .noSupply)
        ∧ (t.seg x).rx = .waitFree ∧ (t.seg x).tx = none
        ∧ (t.seg x).fwd = [] ∧ (t.seg x).fwdOverflow = false
        ∧ (t.seg x).roll = ⟨0, t.store.system.rollInterval, .idle, none⟩)
    ∧ t.room.own = []
    ∧ t.runEntryAge = 0 ∧ t.newcomers = [] ∧ t.newcomerOverflow = false
    ∧ t.pco = ⟨false, t.store.plant.minOff, .off, none,
        if t.mode = .run ∧ hasBoiler t = true then some t.store.plant.demandPeriod else none,
        false, 0, 0, !hasBoiler t⟩
    ∧ t.pls = ⟨if hasBoiler t = true then .sync else .noBoiler,
        if t.store.plant.seed = 0#8 then 1#8 else t.store.plant.seed, 0, 0, none, none, none⟩
    ∧ t.mrs.outstanding = none ∧ t.mrs.warmResetPending = false ∧ t.mrs.lateOverflow = false
    ∧ t.mrs.events = ((resetEvents t).take 16).map (fun b =>
        ⟨b, if t.clock.valid = true then some t.clock.minute else none⟩)
    ∧ t.mrs.eventOverflow = decide (16 < (resetEvents t).length)
    ∧ t.mrs.attn = !(resetEvents t).isEmpty

/-- What a warm reset leaves of the state it found (R177): a reset, with the clock, the holiday and the
overrides kept; the store stays, and so does the command queue (log 26). -/
def WarmResetDone (supply : Segment → Bool) (s t : State) : Prop :=
  ResetDone supply (fun z => (s.zone z).override) t
    ∧ t.clock = s.clock ∧ t.holiday = s.holiday ∧ t.store = s.store ∧ t.storedMode = s.storedMode
    ∧ t.pending = s.pending

/-- An own frame is being sent on the segment, is held for retry there, or waits in its own-frame queue. -/
def OwnHeld (s : State) (x : Segment) (f : OwnFrame) : Prop :=
  (∃ k, (s.seg x).tx = some k ∧ k.frame = .own f) ∨ f ∈ (s.seg x).own

/-- The segment holds a MGMT_REPLY. -/
def ReplyHeld (s : State) (x : Segment) : Prop :=
  ∃ f, OwnHeld s x f ∧ ∃ tag op result data, f.msg = .mgmtReply tag op result data

/-- The segment holds a ROLL_CALL. -/
def RollCallHeld (s : State) (x : Segment) : Prop :=
  ∃ f, OwnHeld s x f ∧ ∃ g, f.msg = .rollCall g

/-- The segment holds the command most recently issued to actuator i. -/
def CommandHeld (s : State) (x : Segment) (i : NodeIx) : Prop :=
  ∃ f, OwnHeld s x f ∧ ∃ n target, f.msg = .valveCmd i n target ∧ (s.node i).act.lastIssue = some n

/-- R164: the close of the roll window of group g on segment x, at node entry i. At the third miss the
node becomes ABSENT, which the Valve Drive Scheduler is told of an actuator (R159, R96). -/
def NodeClosed (x : Segment) (g : Fin 8) (i : NodeIx) (s t : State) : Prop :=
  let v := s.node i
  let charged := (s.nodeCfg i).address ≠ 0x00#8 ∧ (s.nodeCfg i).segment = x
    ∧ (s.nodeCfg i).address.toNat / 16 = g.val ∧ v.seen = false ∧ v.presence ≠ .absent
    ∧ v.presence ≠ .mismatch .segment
  (charged → 3 ≤ v.missCount + 1 →
    (t.node i).presencePart = ⟨.absent, 3, false⟩
      ∧ (∀ j, j ≠ i → (t.node j).presencePart = (s.node j).presencePart)
      ∧ t.mrs = (addEvent (.nodeAbsent (s.nodeCfg i).address v.presence) s).mrs
      ∧ ((s.nodeCfg i).role = .actuator → ThenValves [.presence, .events] (LeftBus i) s t)
      ∧ ((s.nodeCfg i).role ≠ .actuator → Keeps [.presence, .events] s t))
  ∧ (charged → v.missCount + 1 < 3 →
    (t.node i).presencePart = ⟨v.presence, v.missCount + 1, false⟩
      ∧ (∀ j, j ≠ i → (t.node j).presencePart = (s.node j).presencePart) ∧ Keeps [.presence] s t)
  ∧ (¬charged → t = s)

/-! ### Accepted writes and clears, by their rules (R5, R6, R17, R81, R87, R119, R120, R157) -/

/-- What an accepted WRITE_ENTRY or CLEAR_ENTRY makes of the runtime fields, t holding the new entry. A NODE entry
whose address, segment, role or zone changes starts afresh, leaves the Drive Queue, its new address leaves the
Newcomer List, and the supervisor follows the first or last BOILER_IF. A ZONE entry with a new sensor timeout has
its temperatures recomputed (log 12), and with new limits is evaluated then. A PLANT entry holds the error counter to
its threshold and lets heads be issued. Nothing else changes but the outstanding reply. -/
def EntryTaken (item : CommitItem) (s t : State) : Prop :=
  match item with
  | .node i =>
    let old := s.nodeCfg i
    let new := t.nodeCfg i
    let moved := new.address ≠ old.address ∨ new.segment ≠ old.segment ∨ new.role ≠ old.role
      ∨ new.zone ≠ old.zone
    (moved →
      t.node i = ⟨.unknown, 0, false, ⟨none, none, none, .idle, none, none, none⟩⟩
        ∧ (∀ j, j ≠ i → t.node j = s.node j)
        ∧ t.driveQueue = s.driveQueue.filter (fun e => decide (e.node ≠ i))
        ∧ t.newcomers = (if new.address = 0x00#8 then s.newcomers
          else s.newcomers.filter (fun a => decide (a ≠ new.address)))
        ∧ t.newcomerOverflow = s.newcomerOverflow
        ∧ (hasBoiler t = hasBoiler s → t.pls = s.pls ∧ t.pco = s.pco)
        ∧ (hasBoiler t ≠ hasBoiler s → t.pls = ⟨if hasBoiler t = true then .sync else .noBoiler,
            s.pls.question, 0, 0, none, none, none⟩ ∧ FlagRefreshed s t)
        ∧ Keeps [.work, .outstanding, .presence, .actuators, .driveQueue, .newcomers, .pls, .pco] s t)
    ∧ (¬moved → Keeps [.work, .outstanding] s t)
  | .zone z =>
    let old := s.zoneCfg z
    let new := t.zoneCfg z
    ∃ u, Keeps [.work, .outstanding, .regulation] s u ∧ u.work = t.work
      ∧ u.zone z = (if new.sensorTimeout = old.sensorTimeout then s.zone z else
          { s.zone z with
            zoneTemp := zoneTempOf new.sensorTimeout (s.zone z).slot0 (s.zone z).slot1
            floorTemp := floorTempOf new.sensorTimeout (s.zone z).slot0 (s.zone z).slot1 })
      ∧ (∀ y, y ≠ z → u.zone y = s.zone y)
      ∧ (if new.minLimit = old.minLimit ∧ new.maxLimit = old.maxLimit then t = u else Evaluated z u t)
  | .plant =>
    t.pls = { s.pls with errors := min s.pls.errors t.work.plant.faultThreshold }
      ∧ ThenValves [.work, .pls, .outstanding] Issued s t
  | .system => Keeps [.work, .outstanding] s t
  | .level _ => Keeps [.work, .outstanding] s t
  | .profile _ => Keeps [.work, .outstanding] s t
  | .link _ => Keeps [.work, .outstanding] s t
  | .kindMap _ => Keeps [.work, .outstanding] s t
  | .mode => Keeps [.work, .outstanding] s t

/-! ### The minute tick, by its rules (R36, R41, R58, R109, R111, R161) -/

/-- A running count of minutes one tick on: absent when it reaches 0. -/
def minuteOn (n : Option Nat) : Option Nat :=
  n.bind (fun n => if n ≤ 1 then none else some (n - 1))

/-- R41, steps 1 and 2: the holiday and the TEMPORARY overrides count down. -/
def CountedDown (s t : State) : Prop :=
  t.holiday = (if s.holiday.active = true then
      (if s.holiday.minutes ≤ 1 then ⟨false, 0, 0⟩
        else { s.holiday with minutes := s.holiday.minutes - 1 })
    else s.holiday)
  ∧ (∀ z : ZoneIx, t.zone z = { s.zone z with
      override := (match (s.zone z).override with
        | some ⟨.temporary n, sp⟩ => if n ≤ 1 then none else some ⟨.temporary (n - 1), sp⟩
        | o => o) })
  ∧ Keeps [.holiday, .setpoints] s t

/-- R16: a slot at a tick. -/
def agedSlot (c : Slot) : Slot :=
  if c.bound = none then c else { c with age := c.age.map (fun a => min (a + 1) 255) }

/-- R58, steps 1 to 4: slot ages with the temperatures they give, window timers, run-entry age, period
timers. -/
def RegulatorCounted (s t : State) : Prop :=
  t.runEntryAge = min (s.runEntryAge + 1) 255
  ∧ (∀ z : ZoneIx, t.zone z =
      (let c0 := agedSlot (s.zone z).slot0
      let c1 := agedSlot (s.zone z).slot1
      { s.zone z with
        slot0 := c0
        slot1 := c1
        zoneTemp := zoneTempOf (s.zoneCfg z).sensorTimeout c0 c1
        floorTemp := floorTempOf (s.zoneCfg z).sensorTimeout c0 c1
        windowTimer := minuteOn (s.zone z).windowTimer
        periodTimer := (s.zone z).periodTimer.map (fun n => n - 1) }))
  ∧ Keeps [.regulation, .runEntryAge] s t

/-- One block's handling of a minute tick: the Setpoint Resolver counts down and evaluates every zone in
rising order (R41); the Zone Regulator counts, then takes the regulation event of each zone whose period is
over, in rising order (R58); the Plant Coordinator counts, and ends an overrun that is over (R109, R111); the
Roll Call Controllers count, and take an expiry (R161). An event or expiry is the command of its name. -/
def TickTaken (b : TickBlock) (s t : State) : Prop :=
  match b with
  | .resolver => ∃ u, CountedDown s u ∧ Along Evaluated (List.finRange 16) u t
  | .regulator => ∃ u, RegulatorCounted s u
      ∧ Along (fun z v w => if (v.zone z).periodTimer = some 0 then
          exec (.regulationEvent z) v = .next w else w = v) (List.finRange 16) u t
  | .coordinator => ∃ u, u.pco = { s.pco with burnerTimer := s.pco.burnerTimer - 1 } ∧ Keeps [.pco] s u
      ∧ (s.pco.overrunTimer.any (fun n => decide (n ≤ 1)) = true → exec .overrunEnd u = .next t)
      ∧ (s.pco.overrunTimer.any (fun n => decide (n ≤ 1)) = false →
        t.pco = { u.pco with overrunTimer := minuteOn s.pco.overrunTimer } ∧ Keeps [.pco] u t)
  | .rollCall => Along (fun x v w =>
      (((v.seg x).roll.interval ≤ 1 → exec (.rollCallExpiry x) v = .next w)
        ∧ (1 < (v.seg x).roll.interval →
          (w.seg x).roll = { (v.seg x).roll with interval := (v.seg x).roll.interval - 1 }
            ∧ Keeps [.roll x] v w))) [.room, .plant] s t

/-! ### The line, by its rules and layouts (R132, R133, R140, chapter 11) -/

/-- R133: one bit of the frame taken into the check, a division by x^8 + x^5 + x^3 + x^2 + x + 1. -/
def checkBit (r : Byte) (b : Bool) : Byte :=
  if Bool.xor (r.getLsbD 7) b = true then (r <<< 1) ^^^ 0x2F#8 else r <<< 1

/-- The bits of a byte, the most significant first. -/
def bitsOf (b : Byte) : List Bool :=
  [b.getLsbD 7, b.getLsbD 6, b.getLsbD 5, b.getLsbD 4, b.getLsbD 3, b.getLsbD 2, b.getLsbD 1,
    b.getLsbD 0]

/-- R133: the check of some bytes, bit by bit from 0xFF. -/
def checkOf (bytes : List Byte) : Byte := (bytes.flatMap bitsOf).foldl checkBit 0xFF#8

/-- R133: the frame is malformed. -/
abbrev IsMalformed (f : Frame) : Prop :=
  f.chk ≠ checkOf (f.dst :: f.src :: f.kind :: BitVec.ofNat 8 f.payload.length :: f.payload)
    ∨ 32 < f.payload.length ∨ f.kind = 0x00#8 ∨ 0x40 ≤ f.kind.toNat
    ∨ f.src = 0x00#8 ∨ 0x7F ≤ f.src.toNat ∨ 0x7F ≤ f.dst.toNat

/-- R140: the payload has a length that its kind allows. -/
abbrev LengthFits (kind : Byte) (payload : List Byte) : Prop :=
  (kind = 0x01#8 ∨ kind = 0x11#8 → payload.length = 2)
    ∧ (kind = 0x02#8 ∨ kind = 0x03#8 ∨ kind = 0x10#8 → payload.length = 1)
    ∧ (kind = 0x08#8 → payload.length = 3 ∨ payload.length = 5)
    ∧ (kind = 0x09#8 → (payload.length = 1 ∨ payload.length = 3 ∨ payload.length = 5)
      ∧ (payload[0]? = some 4#8 → payload.length = 1)
      ∧ (payload[0]? = some 2#8 ∨ payload[0]? = some 3#8 → payload.length = 3)
      ∧ (payload[0]? = some 1#8 → payload.length = 5))
    ∧ (kind = 0x0A#8 → payload.length = 6) ∧ (kind = 0x14#8 → payload.length = 4)
    ∧ (kind = 0x15#8 → payload.length = 5)
    ∧ (kind = 0x20#8 → 4 ≤ payload.length ∧ payload.length ≤ 32)
    ∧ (kind = 0x21#8 → 3 ≤ payload.length ∧ payload.length ≤ 32)

/-- Byte n of the data, as a number. -/
def byteAt (d : List Byte) (n : Nat) : Nat := (d.getD n 0#8).toNat

/-- Bytes n and n + 1 as a number, the high byte first (R181). -/
def pairAt (d : List Byte) (n : Nat) : Nat := 256 * byteAt d n + byteAt d (n + 1)

/-- Bytes n and n + 1 hold a temperature in two's complement, or 0x8000 for none (R181, 11.2). -/
def TempAt (d : List Byte) (n : Nat) (t : Option T16) : Prop :=
  (pairAt d n : Int) = (match t with
    | some t => t % 65536
    | none => 0x8000)

/-- A byte of flags, bit 0 first. -/
def flagsOf : List Bool → Nat
  | [] => 0
  | b :: l => (if b = true then 1 else 0) + 2 * flagsOf l

/-- A one-byte number, 0xFF for none (11.3). -/
def orFF (n : Option Nat) : Nat :=
  match n with
  | some n => n % 256
  | none => 0xFF

/-- A two-byte number, 0xFFFF for none (11.3). -/
def orFFFF (n : Option Nat) : Nat :=
  match n with
  | some n => n % 65536
  | none => 0xFFFF

/-- The codes that 11.3 lists, as the part sends them. -/
def CodesSent : Prop :=
  [Role.sensor, .roomUnit, .actuator, .boilerIf, .manager, .listener].map roleCode = [1, 2, 3, 4, 5, 6]
    ∧ [Segment.room, .plant].map segmentCode = [0, 1]
    ∧ [Source.override, .holiday, .schedule, .default, .fallback].map sourceCode = [1, 2, 3, 4, 5]
    ∧ [RegState.disabled, .starting, .normal, .sensorLost, .windowOpen, .floorHold].map regCode
      = [0, 1, 2, 3, 4, 5]
    ∧ [none, some SchedFault.chainTooDeep, some .range, some .emptyProfile].map schedFaultCode
      = [0, 1, 2, 3]
    ∧ [Motion.idle, .queued, .moving].map motionCode = [0, 1, 2]
    ∧ [none, some ValveFault.blocked, some .noCompletion].map valveFaultCode = [0, 1, 2]
    ∧ [Presence.unknown, .present, .absent, .mismatch .segment, .mismatch .role].map presenceCode
      = [0, 1, 2, 3, 3]
    ∧ [Presence.unknown, .present, .absent, .mismatch .segment, .mismatch .role].map presenceCauseCode
      = [0, 0, 0, 1, 2]
    ∧ [none, some BoilerStatus.ready, some .firing, some .lockout, some .hotWater].map statusCode
      = [0, 1, 2, 3, 4]
    ∧ [PlantState.noBoiler, .sync, .ok, .fault].map plantStateCode = [0, 1, 2, 3]
    ∧ [LinkFault.early, .bad, .missed].map linkFaultCode = [1, 2, 3]
    ∧ [Pump.off, .on, .overrun].map pumpCode = [0, 1, 2]
    ∧ [Health.up, .noSupply, .stuck].map healthCode = [0, 1, 2]
    ∧ [Mode.commission, .run].map modeCode = [0, 1]
    ∧ [Polynomial.polyA, .polyB].map polyCode = [0, 1]
    ∧ [Result.done, .noData, .badOp, .badTable, .badIndex, .badValue, .wrongMode, .denied,
      .configInvalid].map resultCode = [0, 1, 2, 3, 4, 5, 6, 7, 8]

/-- Codes received are read as 11.3 lists them, and no other code is read. -/
def CodesRead : Prop :=
  (∀ b r, rdRole b = some r ↔ roleCode r = b) ∧ (∀ b r, rdStatus b = some r ↔ statusCode (some r) = b)
    ∧ ∀ b m, rdReportedMotion b = some m ↔ b = (match m with
      | .moving => 1#8
      | .atTarget => 2#8
      | .blocked => 3#8)

/-- A schedule reference in bytes n and n + 1: its kind, and its target, 0 for NONE (11.3, R25). -/
def RefAt (d : List Byte) (n : Nat) (ref : SchedRef) : Prop :=
  (byteAt d n, byteAt d (n + 1)) = (match ref with
    | .noRef => (0, 0)
    | .direct p => (1, p.val)
    | .dayIndexed p => (2, p.val)
    | .linked l => (3, l.val)
    | .linkedDayIndexed l => (4, l.val))

/-- 11.5: a READ_ENTRY of a node, with its actuator fields when that is its role. -/
def NodeEntryLaid (c : NodeCfg) (r : NodeRt) (d : List Byte) : Prop :=
  (c.address = 0x00#8 → d = [0, 0, 6, 0xFF, 0, 0, 0, 0, 0])
  ∧ (c.address ≠ 0x00#8 →
    d.length = (if c.role = .actuator then 16 else 9)
    ∧ d[0]? = some c.address ∧ d[1]? = some (segmentCode c.segment) ∧ d[2]? = some (roleCode c.role)
    ∧ byteAt d 3 = orFF (c.zone.map Fin.val) ∧ byteAt d 4 = flagsOf [c.intake]
    ∧ d[5]? = some (presenceCode r.presence) ∧ d[6]? = some (presenceCauseCode r.presence)
    ∧ byteAt d 7 = r.missCount % 256 ∧ byteAt d 8 = flagsOf [r.seen]
    ∧ (c.role = .actuator →
      byteAt d 9 = orFF r.act.lastCmd ∧ byteAt d 10 = orFF r.act.pending
        ∧ byteAt d 11 = orFF r.act.confirmed ∧ d[12]? = some (motionCode r.act.motion)
        ∧ pairAt d 13 = orFFFF r.act.timer ∧ d[15]? = some (valveFaultCode r.act.fault)))

/-- 11.5: a ZONE entry. -/
def ZoneEntryLaid (c : ZoneCfg) (d : List Byte) : Prop :=
  d.length = 18
    ∧ byteAt d 0 = flagsOf [c.enabled, c.windowDetection, c.holidayEligible, c.overrunPath]
    ∧ TempAt d 1 (some c.minLimit) ∧ TempAt d 3 (some c.maxLimit) ∧ byteAt d 5 = c.defaultLevel.val
    ∧ RefAt d 6 c.schedule ∧ byteAt d 8 = c.pb.toNat % 256 ∧ byteAt d 9 = c.ti % 256
    ∧ byteAt d 10 = c.period % 256 ∧ byteAt d 11 = c.sensorTimeout % 256
    ∧ pairAt d 12 = c.blindDemand % 65536 ∧ TempAt d 14 c.floorLimit
    ∧ byteAt d 16 = c.windowDrop.toNat % 256 ∧ byteAt d 17 = c.windowHold % 256

/-- 11.5: a PLANT entry. -/
def PlantEntryLaid (c : PlantCfg) (d : List Byte) : Prop :=
  d.length = 21
    ∧ byteAt d 0 = c.demandPeriod % 256 ∧ byteAt d 1 = c.minOn % 256 ∧ byteAt d 2 = c.minOff % 256
    ∧ pairAt d 3 = c.fireOn % 65536 ∧ pairAt d 5 = c.fireOff % 65536
    ∧ TempAt d 7 (some c.baseFlow) ∧ TempAt d 9 (some c.maxFlow)
    ∧ byteAt d 11 = c.flowPathMin % 256 ∧ byteAt d 12 = c.overrunTime % 256
    ∧ byteAt d 13 = c.driveLimit % 256 ∧ byteAt d 14 = c.deadband % 256
    ∧ pairAt d 15 = c.motionTimeout % 65536 ∧ d[17]? = some c.seed
    ∧ d[18]? = some (polyCode c.polynomial) ∧ byteAt d 19 = c.faultThreshold % 256
    ∧ byteAt d 20 = c.recoveryCount % 256

/-- 11.5: a PROFILE entry. -/
def ProfileEntryLaid (ps : List SwitchPoint) (d : List Byte) : Prop :=
  d.length = 1 + 3 * ps.length ∧ byteAt d 0 = ps.length % 256
    ∧ ∀ n p, ps[n]? = some p → pairAt d (1 + 3 * n) = p.minute % 65536 ∧ byteAt d (3 + 3 * n) = p.level.val

/-- 11.5: the entry a READ_ENTRY shows. -/
def EntryLaid (s : State) (item : CommitItem) (d : List Byte) : Prop :=
  match item with
  | .system => d.length = 2 ∧ d[0]? = some s.work.system.ownAddress
      ∧ byteAt d 1 = s.work.system.rollInterval % 256
  | .node i => NodeEntryLaid (s.nodeCfg i) (s.node i) d
  | .zone z => ZoneEntryLaid (s.zoneCfg z) d
  | .level l => d.length = 2 ∧ TempAt d 0 (some s.work.levels[l])
  | .profile p => ProfileEntryLaid s.work.profiles[p] d
  | .link l => d.length = 2 ∧ RefAt d 0 s.work.links[l]
  | .plant => PlantEntryLaid s.work.plant d
  | .kindMap k => d.length = 2 ∧ byteAt d 0 = flagsOf [s.work.kindMap[k].roomToPlant]
      ∧ byteAt d 1 = flagsOf [s.work.kindMap[k].plantToRoom]
  | .mode => d = []

/-- 11.6: the six bytes that both parts of READ_ZONE end with. -/
def ClockLaid (s : State) (d : List Byte) (n : Nat) : Prop :=
  pairAt d n = s.clock.minute % 65536 ∧ byteAt d (n + 2) = flagsOf [s.clock.valid, s.holiday.active]
    ∧ byteAt d (n + 3) = s.holiday.level.val ∧ pairAt d (n + 4) = s.holiday.minutes % 65536

/-- 11.6: an override in bytes n to n + 4: kind, setpoint, and minutes remaining or placement level. -/
def OverrideLaid (o : Option Override) (d : List Byte) (n : Nat) : Prop :=
  (byteAt d n, pairAt d (n + 3)) = (match o with
      | none => (0, 0)
      | some ⟨.temporary m, _⟩ => (1, m % 65536)
      | some ⟨.untilNext l, _⟩ => (2, l.val)
      | some ⟨.permanent, _⟩ => (3, 0))
    ∧ TempAt d (n + 1) (match o with
      | none => some 0
      | some o => some o.setpoint)

/-- 11.6: READ_ZONE part 0. -/
def ZonePart0Laid (s : State) (z : ZoneIx) (d : List Byte) : Prop :=
  let v := s.zone z
  d.length = 29
    ∧ d[0]? = some (regCode v.reg) ∧ TempAt d 1 (some v.setpoint) ∧ d[3]? = some (sourceCode v.source)
    ∧ byteAt d 4 = orFF (v.schedLevel.map Fin.val) ∧ d[5]? = some (schedFaultCode v.schedFault)
    ∧ OverrideLaid v.override d 6 ∧ TempAt d 11 v.zoneTemp ∧ TempAt d 13 v.floorTemp
    ∧ pairAt d 15 = v.demand % 65536 ∧ pairAt d 17 = v.integral % 65536 ∧ TempAt d 19 v.prevTemp
    ∧ byteAt d 21 = v.windowTimer.getD 0 % 256 ∧ byteAt d 22 = v.periodTimer.getD 0 % 256
    ∧ ClockLaid s d 23

/-- 11.6: a slot in bytes n to n + 6 of READ_ZONE part 1. -/
def SlotLaid (c : Slot) (d : List Byte) (n : Nat) : Prop :=
  byteAt d n = orFF (c.bound.map Fin.val) ∧ TempAt d (n + 1) c.air ∧ TempAt d (n + 3) c.floor
    ∧ byteAt d (n + 5) = flagsOf [c.valid, c.batteryLow] ∧ byteAt d (n + 6) = c.age.getD 0 % 256

/-- 11.6: READ_ZONE part 1. -/
def ZonePart1Laid (s : State) (z : ZoneIx) (d : List Byte) : Prop :=
  d.length = 20 ∧ SlotLaid (s.zone z).slot0 d 0 ∧ SlotLaid (s.zone z).slot1 d 7 ∧ ClockLaid s d 14

/-- 11.6: READ_PLANT. -/
def PlantLaid (s : State) (d : List Byte) : Prop :=
  let c := s.pco
  let p := s.pls
  d.length = 22
    ∧ d[0]? = some (modeCode s.mode) ∧ byteAt d 1 = flagsOf [c.burnerOn] ∧ byteAt d 2 = c.burnerTimer % 256
    ∧ d[3]? = some (pumpCode c.pump) ∧ byteAt d 4 = c.overrunTimer.getD 0 % 256
    ∧ byteAt d 5 = c.demandTimer.getD 0 % 256 ∧ byteAt d 6 = flagsOf [c.flowPathOpen, c.plantAvailable]
    ∧ pairAt d 7 = c.openDemand % 65536 ∧ TempAt d 9 (some c.lastFlow)
    ∧ d[11]? = some (plantStateCode p.plantState) ∧ d[12]? = some p.question
    ∧ byteAt d 13 = p.errors % 256 ∧ byteAt d 14 = p.good % 256
    ∧ byteAt d 15 = (match p.window.map Window.part with
      | none => 0
      | some .closedPart => 1
      | some .openPart => 2)
    ∧ TempAt d 16 (some (p.window.elim 0 Window.flow))
    ∧ byteAt d 18 = p.window.elim 0 (fun w => flagsOf [w.release, w.judged])
    ∧ d[19]? = some (statusCode p.status) ∧ TempAt d 20 p.actualFlow

/-- 11.4: READ_SEGMENTS. FQ-RP is the queue bound for PLANT, FQ-PR the one bound for ROOM. -/
def SegmentsLaid (s : State) (d : List Byte) : Prop :=
  d.length = 7 ∧ d[0]? = some (healthCode s.room.health) ∧ d[1]? = some (healthCode s.plant.health)
    ∧ byteAt d 2 = s.plant.fwd.length % 256 ∧ byteAt d 3 = s.room.fwd.length % 256
    ∧ byteAt d 4 = s.room.own.length % 256 ∧ byteAt d 5 = s.plant.own.length % 256
    ∧ byteAt d 6 = flagsOf [s.plant.fwdOverflow, s.room.fwdOverflow]

/-- 11.3: kind, subject and detail of an event, as its rule names them (R32, R78, R95, R131, R135 to R137, R159, R173,
R174); a subject of none is 0xFF. -/
def eventCodes : EventBody → Nat × Byte × Byte
  | .sensorLost z left => (1, byteOf z.val, regCode left)
  | .sensorBack z slot => (2, byteOf z.val, byteOf slot.val)
  | .scheduleFault z kind => (3, byteOf z.val, schedFaultCode (some kind))
  | .valveFault a fault => (4, a, valveFaultCode (some fault))
  | .nodeAbsent a left => (5, a, presenceCode left)
  | .nodeBack a x => (6, a, segmentCode x)
  | .nodeMismatch a cause => (7, a, presenceCauseCode (.mismatch cause))
  | .plantFault fault => (8, 0xFF#8, linkFaultCode fault)
  | .plantOk good => (9, 0xFF#8, byteOf good)
  | .boilerLockout a before => (10, a, statusCode before)
  | .segmentDown x entered => (11, segmentCode x, healthCode entered)
  | .segmentUp x left => (12, segmentCode x, healthCode left)
  | .configInvalid ⟨check, .zone z⟩ => (13, byteOf z.val, byteOf check)
  | .configInvalid ⟨check, .node a⟩ => (13, a, byteOf check)
  | .configInvalid ⟨check, .nothing⟩ => (13, 0xFF#8, byteOf check)
  | .modeChanged mode => (14, 0xFF#8, modeCode mode)

/-- 11.4: an event record: kind, subject, detail and stamp. -/
def EventLaid (e : Event) (d : List Byte) : Prop :=
  d.length = 5 ∧ (byteAt d 0, d[1]?, d[2]?)
      = ((eventCodes e.body).1, some (eventCodes e.body).2.1, some (eventCodes e.body).2.2)
    ∧ pairAt d 3 = orFFFF e.stamp

/-- 11.2: the payload of a frame that the part builds. -/
def PayloadLaid (m : OwnMsg) (kind : Byte) (d : List Byte) : Prop :=
  match m with
  | .zoneNotice z sp src t => kind = 0x0A#8 ∧ d.length = 6 ∧ byteAt d 0 = z.val ∧ TempAt d 1 (some sp)
      ∧ d[3]? = some (sourceCode src) ∧ TempAt d 4 t
  | .valveCmd _ _ target => kind = 0x10#8 ∧ d.length = 1 ∧ byteAt d 0 = target % 256
  | .boilerDemand flow release pump question => kind = 0x14#8 ∧ d.length = 4 ∧ TempAt d 0 (some flow)
      ∧ byteAt d 2 = flagsOf [release, pump] ∧ d[3]? = some question
  | .rollCall g => kind = 0x02#8 ∧ d.length = 1 ∧ byteAt d 0 = g.val
  | .mgmtReply tag op result data => kind = 0x21#8 ∧ d = [tag, op, resultCode result] ++ data

/-- R132, 11.1: the characters of a frame and their line bits, a dominant bit being false. -/
def LineLaid (f : Frame) : Prop :=
  f.bytes = [f.dst, f.src, f.kind, BitVec.ofNat 8 f.payload.length] ++ f.payload ++ [f.chk]
    ∧ f.lineBits.length = 10 * f.bytes.length
    ∧ ∀ n b, f.bytes[n]? = some b → (f.lineBits.drop (10 * n)).take 10 = [false] ++ bitsOf b ++ [true]

/-- R169, R145: the entry that a table code and an index name. The Kind Map's entries are the kinds 1 to 63. -/
def Names (table index : Nat) (item : CommitItem) : Prop :=
  match item with
  | .system => table = 1 ∧ index = 0
  | .node i => table = 2 ∧ index = i.val
  | .zone z => table = 3 ∧ index = z.val
  | .level l => table = 4 ∧ index = l.val
  | .profile p => table = 5 ∧ index = p.val
  | .link l => table = 6 ∧ index = l.val
  | .plant => table = 7 ∧ index = 0
  | .kindMap k => table = 8 ∧ index = k.val + 1
  | .mode => False

end Sys2Proof.Machine
end

