-- ==== Sys2Proof/WellFormed.lean ====
section
/-! DEFINITION. Which commands the world outside the part can send: operands within the limits the
manual puts on frames and on each row of the table of operations. -/

namespace Sys2Proof

open Sys2Proof.Machine

/-- A frame that R133 does not call malformed: payload of 32 bytes at most, kind 0x01 to 0x3F, source
0x01 to 0x7E, destination 0x00 to 0x7E. -/
def wfFrame (dst src kind : Byte) (payload : List Byte) : Bool :=
  !(mkFrame dst src kind payload).malformed

/-- A management request that fits a frame: 28 bytes of data at most (11.2). -/
def wfRequest (q : MgmtRequest) : Bool :=
  decide (q.data.length ≤ 28) && wfFrame q.dst q.src 0x20#8 (q.tag :: 0#8 :: q.table :: q.index :: q.data)

/-- A SET_MODE whose data names COMMISSION (11.3). -/
def namesCommission (data : List Byte) : Bool := data == [0x00#8]

/-- An operation code that is none of the thirteen (R169, 11.3). -/
def noOperation (op : Byte) : Bool := op == 0x00#8 || decide (0x0D < op.toNat)

/-- A kind with a row of its own: its frames are that row's commands. A MGMT_REQUEST too short for an
operation code has no such row (R140). -/
def ownRow (kind : Byte) (payload : List Byte) : Bool :=
  match kind.toNat with
  | 0x01 => true
  | 0x03 => true
  | 0x08 => true
  | 0x09 => true
  | 0x11 => true
  | 0x15 => true
  | 0x20 => decide (4 ≤ payload.length)
  | _ => false

/-- Characters that R133 discards: a complete frame that is malformed, or four characters of which LEN
is above 32. -/
def wfMalformed (bytes : List Byte) : Bool :=
  match bytes with
  | [_, _, _, len] => decide (32 < len.toNat)
  | _ => match parseFrame bytes with
    | some f => f.malformed
    | none => false

/-- The bits of the longest frame: 37 characters of ten bits (R132, R133). -/
def longestFrameBits : Nat := 370

/-- A command the world outside the part can send. -/
def Instr.wf (i : Instr) : Bool :=
  match i with
  | .coldReset _ _ _ => true
  | .warmReset q => wfRequest q
  | .warmResetEffect => true
  | .segmentNoSupply _ => true
  | .segmentStuck _ => true
  | .segmentHealthUp _ => true
  | .incompleteFrame _ _ => true
  | .malformedFrame _ bytes => wfMalformed bytes
  | .timeSet _ dst src payload => wfFrame dst src 0x01#8 payload
  | .tempReport _ dst src payload => wfFrame dst src 0x08#8 payload
  | .setRequest _ dst src payload => wfFrame dst src 0x09#8 payload
  | .valveStatus _ dst src payload => wfFrame dst src 0x11#8 payload
  | .boilerAnswer _ dst src payload => wfFrame dst src 0x15#8 payload
  | .rollAnswer _ dst src payload => wfFrame dst src 0x03#8 payload
  | .foreignFrame _ dst src kind payload => wfFrame dst src kind payload && !ownRow kind payload
  | .readEntry q => wfRequest q
  | .writeEntry q => wfRequest q
  | .clearEntry q => wfRequest q
  | .readZone q => wfRequest q
  | .readPlant q => wfRequest q
  | .readSegments q => wfRequest q
  | .fetchEvents q => wfRequest q
  | .readNewcomers q => wfRequest q
  | .clearNewcomers q => wfRequest q
  | .setModeRun q => wfRequest q && !namesCommission q.data
  | .setModeCommission q => wfRequest q && namesCommission q.data
  | .setHoliday q => wfRequest q
  | .cancelOverride q => wfRequest q
  | .commitEnd => true
  | .transmitStart _ => true
  | .lostArbitration _ bit => decide (bit < longestFrameBits)
  | .transmissionComplete _ => true
  | .minuteTick _ => true
  | .holidayEnd => true
  | .temporaryOverrideEnd _ => true
  | .windowTimerRunOut _ => true
  | .regulationEvent _ => true
  | .motionTimeout _ => true
  | .demandPeriodExpiry => true
  | .burnerTimerRunOut => true
  | .overrunEnd => true
  | .answerWindowOpenPart => true
  | .answerWindowClose => true
  | .rollCallExpiry _ => true
  | .rollWindowClose _ => true
  | .mgmtRequestBadOp q op => wfRequest q && noOperation op

end Sys2Proof
end

