-- ==== Sys2Proof/Certificates/Slice0/Obligations.lean ====
section
/-! DEFINITION. What is to be proved of the ZT-620. -/

open Sys2Proof Sys2Proof.Machine

/-! ### The machine as a whole -/

/-- O1. A step takes the command at the front of the queue and runs it on the state with the queue's
rest. -/
def Obligations.StepRunsFrontCommand : Prop :=
  ∀ (c : Instr) (rest : List Instr) (s : State),
    step (s.setPending (c :: rest)) = exec c (s.setPending rest)

/-- O2. The model's choice (log 3): with no command waiting one second passes, which lowers the demand
period timer and every motion timer to 1 at the least, and changes nothing else. -/
def Obligations.EmptyQueuePassesOneSecond : Prop :=
  ∀ s : State, s.pending = [] →
    ∃ t, step s = .next t
      ∧ t.pco = { s.pco with demandTimer := secondOn s.pco.demandTimer }
      ∧ (∀ i : NodeIx, t.node i
          = { s.node i with act := { (s.node i).act with timer := secondOn (s.node i).act.timer } })
      ∧ Keeps [.pco, .actuators] s t

/-- O3. The values after the reset of a new part (R2, R9, R80, R100, R119, R134, R158, R160, R167, R172,
R176), both supply-good lines high (log 4): and a cold reset of that state leaves it as it is. -/
def Obligations.ResetValues : Prop :=
  State.reset.mode = .commission ∧ State.reset.storedMode = .commission
    ∧ State.reset.work = Tables.default ∧ State.reset.store = Tables.default
    ∧ State.reset.ownAddress = 0x7E#8
    ∧ ResetDone (supplyLines true true) (fun _ => none) State.reset
    ∧ (∀ z : ZoneIx, (State.reset.zone z).setpoint = 80 ∧ (State.reset.zone z).source = .default
        ∧ (State.reset.zone z).override = none ∧ (State.reset.zone z).reg = .disabled)
    ∧ State.reset.clock = ⟨0, false⟩ ∧ State.reset.holiday = ⟨false, 0, 0⟩
    ∧ State.reset.pls.question = 0x5A#8 ∧ State.reset.pco.burnerTimer = 5
    ∧ State.reset.mrs.events = [] ∧ State.reset.mrs.attn = false
    ∧ ∀ landed : Bool, exec (.coldReset true true landed) State.reset = .next State.reset

/-- O4. Every invariant below holds right after reset. -/
def Obligations.ResetIsSound : Prop := Sound State.reset

/-- O5. Every step keeps the tables and the store in range (R2, R19, R21, R155, R171), and with them D and I
within 0 to 1000 and every active setpoint within its zone's limits (R8, R43); the temperature fields those of the
slots as they stand (R17), demand 0 in DISABLED, STARTING, WINDOW_OPEN and FLOOR_HOLD (R60), a window timer in
WINDOW_OPEN only, and in RUN a zone DISABLED exactly when it is not enabled (R61, R66). With the store and the
working copy as R172 has them, it keeps the addresses of used NODE entries unique and other than the part's own
(R155). -/
def Obligations.StepKeepsRanges : Prop :=
  ∀ s : State, ConfigSound s → ∀ t, step s = .next t →
    ConfigSound t ∧ (ZonesSound s → ZonesSound t) ∧ (RegulationSound s → RegulationSound t)
      ∧ (CommitSound s → NodesSound s → NodesSound t)

/-- O6. Every step keeps the queues within their bounds: eight frames in each own-frame and forward
queue, none and nothing in transmission on a NO_SUPPLY segment (R134, R135, R146), at most one BOILER_DEMAND
waiting in OQ-P (R114). Every step keeps one MGMT_REPLY held while the outstanding reply is PLACED and none
otherwise (R168, R170), the store equal to the working copy but for the entry being committed (R172), and a warm
reset pending only while a placed reply is outstanding (R177). -/
def Obligations.StepKeepsQueues : Prop :=
  ∀ s t : State, step s = .next t →
    (QueuesSound s → QueuesSound t) ∧ (CommitSound s → CommitSound t)

/-- O7. Every step keeps an actuator QUEUED exactly while it has its one entry in the Drive Queue, and a
pending target with a MOVING one only (R79, R85, R86). -/
def Obligations.StepKeepsDriveQueue : Prop :=
  ∀ s : State, DriveSound s → ∀ t, step s = .next t → DriveSound t

/-- O8. Every step keeps at most sixteen event records, with ATTN high exactly while there is one (R178,
R180), and the Newcomer List at eight addresses at most, without duplicates and without an address of the
Node Table (R166). A raised event joins the tail with its stamp while there is room; else it is lost, the
event-overflow flag is set, and the late-overflow marker while a FETCH_EVENTS reply that was carried out is
outstanding (R178; which replies count is log 17). -/
def Obligations.StepKeepsEventsAndNewcomers : Prop :=
  ∀ s : State, (∀ t, step s = .next t →
    (EventsSound s → EventsSound t) ∧ (NewcomersSound s → NewcomersSound t))
      ∧ ∀ b : EventBody, Keeps [.events] s (addEvent b s) ∧ (addEvent b s).mrs
        = (if s.mrs.events.length < 16 then { s.mrs with
            events := s.mrs.events ++ [⟨b, if s.clock.valid = true then some s.clock.minute else none⟩]
            attn := true }
          else { s.mrs with
            eventOverflow := true
            lateOverflow := s.mrs.lateOverflow || s.mrs.outstanding.any (fun r => r.fetch.isSome) })

/-- O9. Every step keeps the supervisor's counts in bounds, its question other than 0x00, the plant state
NONE exactly without a BOILER_IF entry, and the plant-available flag as R104 has it: set in plant state NONE, and
in OK while the last boiler status is READY or FIRING. The BOILER_IF is the first used entry of that role. -/
def Obligations.StepKeepsLink : Prop :=
  (∀ s : State, LinkSound s → ∀ t, step s = .next t → LinkSound t)
  ∧ (∀ p : Supervisor, plantAvailableOf p = true ↔ p.plantState = .noBoiler
      ∨ (p.plantState = .ok ∧ (p.status = some .ready ∨ p.status = some .firing)))
  ∧ ∀ s : State,
    let boiler := fun i : NodeIx => (s.nodeCfg i).address ≠ 0x00#8 ∧ (s.nodeCfg i).role = .boilerIf
    (hasBoiler s = true ↔ ∃ i, boiler i)
      ∧ ∀ i, findBoiler s = some i ↔ boiler i ∧ ∀ j, j < i → ¬boiler j

/-- O10. Every step keeps a part in COMMISSION at rest: no zone regulated, no drive queued or re-targeted,
the burner and the pump off, the demand period timer stopped and no answer window open (R13, R56, R61,
R97, R101, R115, R119). -/
def Obligations.StepKeepsCommissionAtRest : Prop :=
  ∀ s : State, DriveSound s → CommissionSound s → ∀ t, step s = .next t → CommissionSound t

/-- O11. The Configuration Store changes only at the end of a commit or at a cold reset that falls into
one (R172). -/
def Obligations.StoreChangesOnlyByCommit : Prop :=
  ∀ (c : Instr) (s : State), c ≠ .commitEnd → (∀ r p l, c ≠ .coldReset r p l) →
    ∀ t, exec c s = .next t → t.store = s.store ∧ t.storedMode = s.storedMode

/-- O12. The mode changes only by SET_MODE and at a reset (R167, R174 to R177). -/
def Obligations.ModeChangesOnlyBySetModeOrReset : Prop :=
  ∀ (c : Instr) (s : State), c.wf = true → s.mrs.warmResetPending = false →
    (∀ q, c ≠ .setModeRun q) → (∀ q, c ≠ .setModeCommission q) → (∀ q, c ≠ .warmReset q) →
    (∀ r p l, c ≠ .coldReset r p l) → ∀ t, exec c s = .next t → t.mode = s.mode

/-- O13. The burner is released only at a demand period expiry taken with the burner timer at 0, the plant
state OK, the flow path open and the open demand at or above the fire-on threshold (R107). -/
def Obligations.BurnerReleasedOnlyWhenSafe : Prop :=
  ∀ (c : Instr) (s : State), s.pco.burnerOn = false →
    ∀ t, exec c s = .next t → t.pco.burnerOn = true →
    c = .demandPeriodExpiry ∧ s.pco.demandTimer.isSome = true ∧ s.pco.burnerTimer = 0
      ∧ s.pls.plantState = .ok ∧ flowPath s = true ∧ s.work.plant.fireOn ≤ openDemand s

/-- O14. The wire formats of the table entries lose nothing: every entry in range is read back from the
bytes that show it (R181 to R183, 11.5). Every entry is shown byte for byte in the layout of 11.5, with the
codes that 11.3 lists, and those codes and no others are read. By the model's choice the byte 0xFF of Ti and of
the question seed is 255 (log 31). -/
def Obligations.EntryFormatsRoundTrip : Prop :=
  CodesSent ∧ CodesRead ∧ (∀ (s : State) (item : CommitItem), EntryLaid s item (entryBytes s item))
    ∧ (∀ c : ZoneCfg, c.inRange → rdZone (zoneCfgBytes c) = some c)
    ∧ (∀ c : PlantCfg, c.inRange → rdPlant (plantCfgBytes c) = some c)
    ∧ (∀ ps, profileSound ps → rdProfile (profileBytes ps) = some ps)
    ∧ (∀ r, rdLink (schedRefBytes r) = some r)
    ∧ (∀ t : T16, 80 ≤ t → t ≤ 480 → rdLevel (t16 t) = some t)
    ∧ (∀ k : KindFlags, rdKindFlags [boolByte k.roomToPlant, boolByte k.plantToRoom] = some k)
    ∧ (∀ c : SystemCfg, 1 ≤ c.ownAddress.toNat → c.ownAddress.toNat ≤ 0x7E → 1 ≤ c.rollInterval →
        c.rollInterval ≤ 60 → rdSystem [c.ownAddress, byteOf c.rollInterval] = some c)
    ∧ ∀ c : NodeCfg, c.used = true → c.address.toNat ≤ 0x7E →
        (c.zone.isSome = true ↔ c.role = .sensor ∨ c.role = .roomUnit ∨ c.role = .actuator) →
        rdNode (nodeCfgBytes c) = some c

/-! ### Frames -/

/-- O15. A frame that R133 discards, and one cut short, leave nothing behind but the receiver's wait for a
free line (R132, R133); on a segment that is not receiving they do nothing (log 7). -/
def Obligations.DiscardedFrames : Prop :=
  ∀ (x : Segment) (s : State),
    (canReceive s x = true →
      (∀ bytes, wfMalformed bytes = true →
        ∃ t, exec (.malformedFrame x bytes) s = .next t ∧ (t.seg x).rx = .waitFree
          ∧ Keeps [.rx x] s t)
      ∧ (∃ t, exec (.incompleteFrame x .freeLine) s = .next t ∧ (t.seg x).rx = .lineFree
          ∧ Keeps [.rx x] s t)
      ∧ ∃ t, exec (.incompleteFrame x .dominantStop) s = .next t ∧ (t.seg x).rx = .waitFree
          ∧ Keeps [.rx x] s t)
    ∧ (canReceive s x = false →
      (∀ bytes, exec (.malformedFrame x bytes) s = .next s)
        ∧ ∀ cut, exec (.incompleteFrame x cut) s = .next s)

/-- O16. A frame that is malformed, of a length its kind does not have, or sent from the part's own
address has no effect (R133, R140, R141); nor has one on a segment that is not receiving (log 7). Malformed is what
R133 calls so: a wrong check, a length above 32, or a kind, source or destination out of range; the lengths are
those of R140's table. A segment receives while it is UP and the part is not transmitting on it. -/
def Obligations.DroppedFrames : Prop :=
  (∀ (c : Instr) (s : State), ∀ p, frameOf c = some p →
    (canReceive s p.1 = true →
      IsMalformed p.2 ∨ ¬LengthFits p.2.kind p.2.payload ∨ p.2.src = s.ownAddress →
      ∃ t, exec c s = .next t ∧ (t.seg p.1).rx = .waitFree ∧ Keeps [.rx p.1] s t)
    ∧ (canReceive s p.1 = false → exec c s = .next s))
  ∧ (∀ f : Frame, f.malformed = true ↔ IsMalformed f)
  ∧ (∀ (kind : Byte) (payload : List Byte),
      lengthAllowed (rdKind kind) payload = true ↔ LengthFits kind payload)
  ∧ ∀ (s : State) (x : Segment), canReceive s x = true ↔
      (s.seg x).health = .up ∧ ∀ k, (s.seg x).tx = some k → k.held = true

/-- O17. An unknown source is recorded in the Newcomer List (R141, R166). In RUN its frame is dropped; in
COMMISSION the frame is forwarded as its destination asks, and one that is neither a TIME_SET nor a
MGMT_REQUEST is handed to no block (R143, R144). An address is known when a used NODE entry holds it (R155). -/
def Obligations.UnknownSource : Prop :=
  (∀ (s : State) (a : Byte),
    let holds := fun i : NodeIx => (s.nodeCfg i).address ≠ 0x00#8 ∧ (s.nodeCfg i).address = a
    (findNode s a = none ↔ ∀ i, ¬holds i)
      ∧ ∀ i, findNode s a = some i ↔ holds i ∧ ∀ j, j < i → ¬holds j)
  ∧ ∀ (c : Instr) (s : State), ∀ p, frameOf c = some p → Accepted p.1 p.2 s →
    findNode s p.2.src = none →
    (s.mode = .run →
      ∃ t, exec c s = .next t ∧ Recorded p.2.src s t ∧ Keeps [.rx p.1, .newcomers] s t)
    ∧ (s.mode = .commission → rdKind p.2.kind ≠ .timeSet → rdKind p.2.kind ≠ .mgmtRequest →
      ∃ t, exec c s = .next t ∧ Recorded p.2.src s t ∧ Copied p.1 p.2 s t
        ∧ Keeps ([.rx p.1, .newcomers] ++ copyFields p.1) s t)

/-- O18. A frame heard on its source's configured segment makes the source PRESENT, but for a MISMATCH of
cause ROLE, clears its miss count and sets its seen flag; an ABSENT one gives NODE_BACK (R142). An actuator
that so becomes PRESENT is given its target at once when its zone is disabled (R83, R96). -/
def Obligations.SourceCheckAtHome : Prop :=
  ∀ (x : Segment) (f : Frame) (s : State), ∀ i, findNode s f.src = some i →
    (s.nodeCfg i).segment = x →
    ((afterSource x f s).node i).presencePart
        = ⟨if (s.node i).presence = .mismatch .role then .mismatch .role else .present, 0, true⟩
      ∧ (∀ j, j ≠ i → ((afterSource x f s).node j).presencePart = (s.node j).presencePart)
      ∧ (afterSource x f s).mrs
        = (if (s.node i).presence = .absent then addEvent (.nodeBack (s.nodeCfg i).address x) s
          else s).mrs
      ∧ ((s.nodeCfg i).isActuator = false →
          Keeps [.rx x, .presence, .events] s (afterSource x f s))
      ∧ ((s.nodeCfg i).isActuator = true → (s.node i).presence ≠ .present →
          (s.node i).presence ≠ .mismatch .role →
          ThenValves [.rx x, .presence, .events] (JoinedBus i) s (afterSource x f s))
      ∧ ((s.node i).presence = .present ∨ (s.node i).presence = .mismatch .role →
          Keeps [.rx x, .presence] s (afterSource x f s))
      ∧ Keeps ([.rx x, .presence, .events] ++ issueFields) s (afterSource x f s)

/-- O19. A frame heard on the other segment makes its source a MISMATCH of cause SEGMENT, with
NODE_MISMATCH unless it was one already, and is dropped; miss count and seen flag stay (R142). An actuator
that so leaves the bus leaves the Drive Queue and loses its fields but for its fault, and a slot it held is
free for the next issue; no other actuator changes but by R87 (R96). -/
def Obligations.SourceCheckAway : Prop :=
  ∀ (c : Instr) (s : State), ∀ p, frameOf c = some p → Accepted p.1 p.2 s →
    ∀ i, findNode s p.2.src = some i → (s.nodeCfg i).segment ≠ p.1 →
    ∃ t, exec c s = .next t
      ∧ (t.node i).presencePart = ⟨.mismatch .segment, (s.node i).missCount, (s.node i).seen⟩
      ∧ (∀ j, j ≠ i → (t.node j).presencePart = (s.node j).presencePart)
      ∧ t.mrs = (if (s.node i).presence = .mismatch .segment then s
          else addEvent (.nodeMismatch (s.nodeCfg i).address .segment) s).mrs
      ∧ ((s.nodeCfg i).isActuator = true → (s.node i).presence ≠ .mismatch .segment →
          (t.node i).act = { Actuator.reset with fault := (s.node i).act.fault })
      ∧ ((s.nodeCfg i).isActuator = true → (s.node i).presence ≠ .mismatch .segment →
          ThenValves [.rx p.1, .presence, .events] (LeftBus i) s t)
      ∧ ((s.node i).presence = .mismatch .segment → Keeps [.rx p.1] s t)
      ∧ ((s.nodeCfg i).isActuator = false → Keeps [.rx p.1, .presence, .events] s t)
      ∧ Keeps ([.rx p.1, .presence, .events] ++ issueFields) s t

/-- O20. Which frames cross (R144): never ROLL_CALL or ROLL_ANSWER or a frame to the part itself; a broadcast
by its Kind Map flag (R145); a frame to a node of the other segment; a frame to an unknown address in
COMMISSION only. FOREIGN_FRAME, a frame of a kind handed to no block, is forwarded so (R147) and does nothing
else (R143); nor does a MGMT_REQUEST whose destination is not the part. -/
def Obligations.ForwardingByDestination : Prop :=
  (∀ (s : State) (x : Segment) (f : Frame),
    (forwards s x f = true ↔
      rdKind f.kind ≠ .rollCall ∧ rdKind f.kind ≠ .rollAnswer ∧ f.dst ≠ s.ownAddress
        ∧ (f.dst = 0x00#8 → broadcastCrosses s x f.kind = true)
        ∧ (f.dst ≠ 0x00#8 →
          (∀ j, findNode s f.dst = some j → (s.nodeCfg j).segment = otherSegment x)
            ∧ (findNode s f.dst = none → s.mode = .commission)))
    ∧ ∀ k : Fin 63, f.kind.toNat = k.val + 1 →
        broadcastCrosses s x f.kind = (if x = .room then s.work.kindMap[k].roomToPlant
          else s.work.kindMap[k].plantToRoom))
  ∧ (∀ (c : Instr) (s : State), ∀ p, requestOf c = some p →
    Admitted p.1.seg (requestFrame p.1 p.2) s → p.1.dst ≠ s.ownAddress →
    let h := requestState p.1 p.2 s
    ∃ t, exec c s = .next t ∧ Copied p.1.seg (requestFrame p.1 p.2) h t
      ∧ Keeps (copyFields p.1.seg) h t)
  ∧ ∀ (x : Segment) (dst src kind : Byte) (payload : List Byte) (s : State),
    ownRow kind payload = false → Admitted x (mkFrame dst src kind payload) s →
    let h := afterSource x (mkFrame dst src kind payload) s
    ∃ t, exec (.foreignFrame x dst src kind payload) s = .next t
      ∧ Copied x (mkFrame dst src kind payload) h t ∧ Keeps (copyFields x) h t

/-- O21. TIME_SET: from a MANAGER, or from anyone in COMMISSION, a week-minute below 10080 sets the clock,
makes it valid and has every zone evaluated, in rising order, with its events and notices (R39, R41); otherwise
the frame is only forwarded (R37, R38). -/
def Obligations.TimeSetSetsClock : Prop :=
  ∀ (x : Segment) (dst src hi lo : Byte) (s : State),
    Admitted x (mkFrame dst src 0x01#8 [hi, lo]) s →
    let f := mkFrame dst src 0x01#8 [hi, lo]
    let h := afterSource x f s
    let w := hi.toNat * 256 + lo.toNat
    ∃ t, exec (.timeSet x dst src [hi, lo]) s = .next t ∧ Copied x f h t
      ∧ (if (s.mode = .commission ∨ isManager s (findNode s src) = true) ∧ w < 10080 then
          t.clock = ⟨w, true⟩
            ∧ (∀ z : ZoneIx, t.zone z = evaluatedZone (h.setClock ⟨w, true⟩) z)
            ∧ (∃ u, Along Evaluated (List.finRange 16) (h.setClock ⟨w, true⟩) u
                ∧ Keeps (copyFields x) u t)
            ∧ Keeps ([.clock] ++ evaluationFields ++ copyFields x) h t
        else Keeps (copyFields x) h t)

/-- O22. TEMP_REPORT: taken from a SENSOR or ROOM_UNIT with intake on when its air value lies in -640 to
1600 (R14, R143): the slots bound to the node hold its readings at age 0 and valid, and the temperatures of
their zones are recomputed (R15, R17). Otherwise the frame is only forwarded. Its floor reading is held only
when the report is of length 5, its floor-present flag is set and the value lies in -640 to 1600 (R15). The
recomputed temperatures are those of the fresh slots: half the sum of two air readings rounded down, or the one, or
none, and the larger floor reading, or the one, or none (R16, R17). -/
def Obligations.TempReportFillsSlot : Prop :=
  (∀ (x : Segment) (dst src : Byte) (payload : List Byte) (s : State),
    Admitted x (mkFrame dst src 0x08#8 payload) s →
    let f := mkFrame dst src 0x08#8 payload
    let h := afterSource x f s
    ∃ t, exec (.tempReport x dst src payload) s = .next t ∧ Copied x f h t
      ∧ (∀ i, findNode s src = some i → ∀ r, rdTempReport payload = some r →
          if ((s.nodeCfg i).role = .sensor ∨ (s.nodeCfg i).role = .roomUnit)
              ∧ (s.nodeCfg i).intake = true ∧ -640 ≤ r.air ∧ r.air ≤ 1600 then
            (∀ z : ZoneIx,
              let filled := fun b : Option NodeIx => (⟨b, some r.air, r.floor, r.batteryLow, some 0, true⟩ : Slot)
              let timeout := (h.zoneCfg z).sensorTimeout
              let v := h.zone z
              t.zone z =
                (if v.slot0.bound = some i then
                  { v with
                    slot0 := filled (some i)
                    zoneTemp := zoneTempOf timeout (filled (some i)) v.slot1
                    floorTemp := floorTempOf timeout (filled (some i)) v.slot1 }
                else if v.slot1.bound = some i then
                  { v with
                    slot1 := filled (some i)
                    zoneTemp := zoneTempOf timeout v.slot0 (filled (some i))
                    floorTemp := floorTempOf timeout v.slot0 (filled (some i)) }
                else v))
              ∧ Keeps ([.regulation] ++ copyFields x) h t
          else Keeps (copyFields x) h t)
      ∧ (findNode s src = none → Keeps (copyFields x) h t))
  ∧ (∀ ah al fl fh fo : Byte,
    rdTempReport [ah, al, fl] = some ⟨(ah ++ al).toInt, none, fl.getLsbD 1⟩
    ∧ rdTempReport [ah, al, fl, fh, fo] = some ⟨(ah ++ al).toInt,
        if fl.getLsbD 0 = true ∧ -640 ≤ (fh ++ fo).toInt ∧ (fh ++ fo).toInt ≤ 1600
          then some (fh ++ fo).toInt else none,
        fl.getLsbD 1⟩)
  ∧ ∀ (timeout : Nat) (c0 c1 : Slot),
    TempsAre timeout c0 c1 (zoneTempOf timeout c0 c1) (floorTempOf timeout c0 c1)

/-- O23. SET_REQUEST: a request taken for an enabled zone in RUN from its PRESENT ROOM_UNIT with intake on,
addressed to the part or broadcast (R45, R143), places the override R46 or R47 gives, or cancels the present
one (R50), has the zone evaluated, with its events and notices (R39), and ends a window hold (R68). Any other
request changes no override, ends no window hold, and is only forwarded. The kinds and lengths are TEMPORARY 1 of
5 bytes, UNTIL_NEXT 2 and PERMANENT 3 of 3, and CANCEL 4 of 1 (R140, 11.3). -/
def Obligations.SetRequestTakenOrIgnored : Prop :=
  (∀ (x : Segment) (dst src : Byte) (payload : List Byte) (s : State),
    Admitted x (mkFrame dst src 0x09#8 payload) s →
    ∀ i, findNode s src = some i →
    let f := mkFrame dst src 0x09#8 payload
    let h := afterSource x f s
    (s.nodeCfg i).role = .roomUnit → (s.nodeCfg i).intake = true →
    (dst = s.ownAddress ∨ dst = 0x00#8) → s.mode = .run → (h.node i).presence = .present →
    ∀ z, (s.nodeCfg i).zone = some z → (s.zoneCfg z).enabled = true →
    ∀ o, rdSetRequest payload = some o →
    let limited := clampToLimits (s.zoneCfg z)
    let placed : Option Override := match o with
      | .temporary sp d => some ⟨.temporary (clamp 15 1440 d).toNat, limited sp⟩
      | .permanent sp => some ⟨.permanent, limited sp⟩
      | .untilNext sp => match (resolveZone z h).level? with
        | some l => some ⟨.untilNext l, limited sp⟩
        | none => some ⟨.temporary 240, limited sp⟩
      | .cancel => none
    ∃ t, exec (.setRequest x dst src payload) s = .next t ∧ Copied x f h t
      ∧ (t.zone z).override = placed
      ∧ (t.zone z).resolverPart
        = (if o = .cancel ∧ (h.zone z).override = none then h.zone z
          else evaluatedZone (setOverride z placed h) z).resolverPart
      ∧ (t.zone z).regulatorPart
        = (if (h.zone z).reg = .windowOpen then
            { h.zone z with reg := .normal, windowTimer := none, prevTemp := none }
          else h.zone z).regulatorPart
      ∧ (∀ y, y ≠ z → t.zone y = h.zone y)
      ∧ (∃ u, (if o = .cancel ∧ (h.zone z).override = none then u = h
            else Evaluated z (setOverride z placed h) u)
          ∧ Keeps ([.regulation] ++ copyFields x) u t)
      ∧ Keeps ([.regulation] ++ evaluationFields ++ copyFields x) h t)
  ∧ (∀ (x : Segment) (dst src : Byte) (payload : List Byte) (s : State),
    Admitted x (mkFrame dst src 0x09#8 payload) s →
    let f := mkFrame dst src 0x09#8 payload
    let h := afterSource x f s
    (rdSetRequest payload = none ∨ s.mode = .commission
      ∨ (dst ≠ s.ownAddress ∧ dst ≠ 0x00#8)
      ∨ (∀ i, findNode s src = some i → (s.nodeCfg i).role ≠ .roomUnit
          ∨ (s.nodeCfg i).intake = false ∨ (h.node i).presence ≠ .present
          ∨ (∀ z, (s.nodeCfg i).zone = some z → (s.zoneCfg z).enabled = false))) →
    ∃ t, exec (.setRequest x dst src payload) s = .next t ∧ Copied x f h t
      ∧ Keeps (copyFields x) h t)
  ∧ ∀ (payload : List Byte) (o : OverrideRequest), rdSetRequest payload = some o ↔
    ∃ sh sl dh dl : Byte,
      let sp := (sh ++ sl).toInt
      (payload = [1#8, sh, sl, dh, dl] ∧ o = .temporary sp (dh.toNat * 256 + dl.toNat))
        ∨ (payload = [2#8, sh, sl] ∧ o = .untilNext sp) ∨ (payload = [3#8, sh, sl] ∧ o = .permanent sp)
        ∨ (payload = [4#8] ∧ o = .cancel)

/-- O24. VALVE_STATUS: a report taken from an actuator that is IDLE, QUEUED, or MOVING with its motion timer
absent updates the confirmed position and does nothing else but be forwarded (R94, the frame's copy by
R144). -/
def Obligations.ValveStatusWithoutMotion : Prop :=
  ∀ (x : Segment) (dst src pos m : Byte) (s : State),
    Admitted x (mkFrame dst src 0x11#8 [pos, m]) s →
    ∀ i, findNode s src = some i →
    let f := mkFrame dst src 0x11#8 [pos, m]
    let h := afterSource x f s
    let a := (h.node i).act
    (s.nodeCfg i).role = .actuator → (s.nodeCfg i).segment = .plant → (h.node i).presence = .present →
    (rdReportedMotion m).isSome = true → (a.motion ≠ .moving ∨ a.timer = none) →
    ∃ t, exec (.valveStatus x dst src [pos, m]) s = .next t ∧ Copied x f h t
      ∧ (t.node i).act = { a with confirmed := some (min pos.toNat 100) }
      ∧ (∀ j, j ≠ i → (t.node j).act = (h.node j).act)
      ∧ Keeps ([.actuators] ++ copyFields x) h t

/-- O25. VALVE_STATUS from an actuator that is MOVING with its timer running (R93): MOVING updates the
position; AT_TARGET frees the slot, clears the fault and appends a pending target that passes R84 against
the position reached at the tail of the Drive Queue, its actuator QUEUED, and discards one that fails; BLOCKED
frees the slot, records the fault and raises VALVE_FAULT (R95). After both, heads are issued as R87 allows, and
no other actuator, and nothing else of the Drive Queue and OQ-P, changes. A report with another
motion code, from a MISMATCH or from a node that is no actuator of the PLANT segment (log 27) is only
forwarded (R92, R143). -/
def Obligations.ValveStatusEndsMotion : Prop :=
  (∀ (x : Segment) (dst src pos m : Byte) (s : State),
    Admitted x (mkFrame dst src 0x11#8 [pos, m]) s →
    ∀ i, findNode s src = some i →
    let f := mkFrame dst src 0x11#8 [pos, m]
    let h := afterSource x f s
    let a := (h.node i).act
    let p := min pos.toNat 100
    (s.nodeCfg i).role = .actuator → (s.nodeCfg i).segment = .plant → (h.node i).presence = .present →
    let stopped : Actuator := { a with
      confirmed := some p, motion := .idle, timer := none, pending := none, lastIssue := none }
    a.motion = .moving → a.timer.isSome = true →
    ∃ t, exec (.valveStatus x dst src [pos, m]) s = .next t ∧ Copied x f h t
      ∧ (rdReportedMotion m = some .moving →
          (t.node i).act = { a with confirmed := some p }
            ∧ (∀ j, j ≠ i → (t.node j).act = (h.node j).act)
            ∧ Keeps ([.actuators] ++ copyFields x) h t)
      ∧ (rdReportedMotion m = some .atTarget →
          (∀ target, a.pending = some target → worthAgainst h.work.plant.deadband p target = true →
            ThenValves (copyFields x) (ActThenIssued i { stopped with motion := .queued, fault := none }
              (h.driveQueue ++ [⟨i, target⟩])) h t)
            ∧ (a.pending.any (worthAgainst h.work.plant.deadband p) = false →
              ThenValves (copyFields x) (ActThenIssued i { stopped with fault := none } h.driveQueue) h t)
            ∧ (i ∉ h.driveQueue.map DriveEntry.node →
              (t.node i).act.confirmed = some p ∧ (t.node i).act.fault = none
                ∧ (t.node i).act.pending = none ∧ (t.node i).act.timer = none
                ∧ (if a.pending.any (worthAgainst h.work.plant.deadband p) = true then
                    (t.node i).act.motion = .queued ∨ (t.node i).act.lastCmd = a.pending
                  else (t.node i).act.motion = .idle ∧ (t.node i).act.lastCmd = a.lastCmd))
            ∧ t.mrs = h.mrs)
      ∧ (rdReportedMotion m = some .blocked →
          ThenValves ([.events] ++ copyFields x)
              (ActThenIssued i { stopped with fault := some .blocked } h.driveQueue) h t
            ∧ (i ∉ h.driveQueue.map DriveEntry.node →
              (t.node i).act = { stopped with fault := some .blocked })
            ∧ t.mrs = (addEvent (.valveFault (s.nodeCfg i).address .blocked) h).mrs)
      ∧ Keeps (issueFields ++ [.events] ++ copyFields x) h t)
  ∧ ∀ (x : Segment) (dst src pos m : Byte) (s : State),
    Admitted x (mkFrame dst src 0x11#8 [pos, m]) s →
    let f := mkFrame dst src 0x11#8 [pos, m]
    let h := afterSource x f s
    (rdReportedMotion m = none
      ∨ ∀ i, findNode s src = some i →
        (s.nodeCfg i).role ≠ .actuator ∨ (s.nodeCfg i).segment = .room
          ∨ (h.node i).presence = .mismatch .role) →
    ∃ t, exec (.valveStatus x dst src [pos, m]) s = .next t
      ∧ Copied x f h t ∧ Keeps (copyFields x) h t

/-- O26. BOILER_ANSWER: an answer from the boiler interface to the outstanding question, while a window is
open and not yet judged (R125), is judged: EARLY in the closed part, and in the open part GOOD when it is the
expected answer and BAD otherwise (R126), with the counts and the plant state R128 to R130 give. Any other
answer is only forwarded (R125, R143). -/
def Obligations.BoilerAnswerJudged : Prop :=
  (∀ (x : Segment) (dst src answer st fh fl : Byte) (s : State),
    Admitted x (mkFrame dst src 0x15#8 [s.pls.question, answer, st, fh, fl]) s →
    ∀ i, findNode s src = some i →
    let f := mkFrame dst src 0x15#8 [s.pls.question, answer, st, fh, fl]
    let h := afterSource x f s
    (s.nodeCfg i).role = .boilerIf → (h.node i).presence = .present →
    ∀ w, s.pls.window = some w → w.judged = false → ∀ b, rdStatus st = some b →
    ∃ t, exec (.boilerAnswer x dst src [s.pls.question, answer, st, fh, fl]) s = .next t
      ∧ Copied x f h t ∧ t.pls.window = some { w with judged := true }
      ∧ (if w.part = .openPart ∧ answer = expectedAnswer s.pls.question w.flow w.release then
          t.pls.good = min (s.pls.good + 1) 15
            ∧ t.pls.question = stepQuestion s.work.plant.polynomial s.pls.question
            ∧ t.pls.status = some b ∧ t.pls.actualFlow = some (clamp (-640) 1600 (fh ++ fl).toInt)
            ∧ (if s.pls.plantState = .sync
                  ∨ (s.pls.plantState = .fault ∧ s.work.plant.recoveryCount ≤ t.pls.good) then
                t.pls.plantState = .ok ∧ t.pls.errors = 0
              else t.pls.plantState = s.pls.plantState ∧ t.pls.errors = s.pls.errors - 1)
            ∧ t.mrs
              = (let e := if b = .lockout ∧ s.pls.status ≠ some .lockout then
                    addEvent (.boilerLockout src s.pls.status) h else h
                if s.pls.plantState = .fault ∧ t.pls.plantState = .ok then
                  addEvent (.plantOk t.pls.good) e else e).mrs
        else
          ChargedFrom s.work.plant.faultThreshold s.pls t.pls
            ∧ t.mrs = (if s.pls.plantState = .ok ∧ t.pls.plantState = .fault then
                addEvent (.plantFault (if w.part = .openPart then .bad else .early)) h else h).mrs)
      ∧ FlagRefreshed h t ∧ Keeps ([.pls, .pco, .events] ++ copyFields x) h t)
  ∧ ∀ (x : Segment) (dst src echo answer st fh fl : Byte) (s : State),
    Admitted x (mkFrame dst src 0x15#8 [echo, answer, st, fh, fl]) s →
    let f := mkFrame dst src 0x15#8 [echo, answer, st, fh, fl]
    let h := afterSource x f s
    (s.pls.window.all (fun w => w.judged) = true ∨ echo ≠ s.pls.question ∨ rdStatus st = none
      ∨ ∀ i, findNode s src = some i →
        (s.nodeCfg i).role ≠ .boilerIf ∨ (h.node i).presence = .mismatch .role) →
    ∃ t, exec (.boilerAnswer x dst src [echo, answer, st, fh, fl]) s = .next t
      ∧ Copied x f h t ∧ Keeps (copyFields x) h t

/-- O27. ROLL_ANSWER: addressed to the part in the roll window of the called group, a right role code lifts
a MISMATCH of cause ROLE and a wrong one sets it on a PRESENT node, with NODE_MISMATCH; an answer that is
not so checked has no effect of its own, and no answer is forwarded (R143, R144, R163). An actuator made
PRESENT or MISMATCH is told to the Valve Drive Scheduler (R83, R96, R159). -/
def Obligations.RollAnswerChecksRole : Prop :=
  ∀ (x : Segment) (dst src code : Byte) (s : State),
    Admitted x (mkFrame dst src 0x03#8 [code]) s →
    ∀ i, findNode s src = some i →
    let h := afterSource x (mkFrame dst src 0x03#8 [code]) s
    ∃ t, exec (.rollAnswer x dst src [code]) s = .next t
      ∧ (if dst = s.ownAddress ∧ (s.seg x).roll.phase = .window
            ∧ (s.seg x).roll.group.any (fun g => groupOf src == g.val) = true then
          (t.node i).presence
              = (if rdRole code = some (s.nodeCfg i).role then .present else .mismatch .role)
            ∧ (t.node i).missCount = (h.node i).missCount ∧ (t.node i).seen = (h.node i).seen
            ∧ (∀ j, j ≠ i → (t.node j).presencePart = (h.node j).presencePart)
            ∧ t.mrs = (if rdRole code ≠ some (s.nodeCfg i).role ∧ (h.node i).presence = .present
                then addEvent (.nodeMismatch src .role) h else h).mrs
            ∧ ((s.nodeCfg i).isActuator = false → Keeps [.presence, .events] h t)
            ∧ ((t.node i).presence = (h.node i).presence → t = h)
            ∧ ((s.nodeCfg i).isActuator = true → (t.node i).presence ≠ (h.node i).presence →
                ThenValves [.presence, .events]
                  (if (t.node i).presence = .present then JoinedBus i else LeftBus i) h t)
            ∧ Keeps ([.presence, .events] ++ issueFields) h t
        else t = h)

/-! ### Management -/

/-- O28. READ_ENTRY, READ_ZONE, READ_PLANT and READ_NEWCOMERS answer DONE with the entry or record named and
change nothing but the reply they place (R8, R166, R169); a reply its queue refuses is dropped (R170). The data is
laid out as 11.4 to 11.6 have it: READ_ZONE 29 bytes for part 0 and 20 for part 1, READ_PLANT 22 (R181), with the
codes of O14. -/
def Obligations.ReadsAnswer : Prop :=
  ∀ (q : MgmtRequest) (s : State),
    (∀ item, namedEntry q.table q.index = .ok item → Executed q 0x01#8 s → q.data = [] →
      let h := requestState q 0x01#8 s
      NoResetAtRefusal q h → ∃ t, exec (.readEntry q) s = .next t
        ∧ Replied q 0x01#8 .done (entryBytes h item) none h t ∧ EntryLaid h item (entryBytes h item)
        ∧ Keeps (replyFields q) h t)
    ∧ (∀ z : ZoneIx, q.index.toNat = z.val → Executed q 0x04#8 s → q.data = [0#8] ∨ q.data = [1#8] →
      let h := requestState q 0x04#8 s
      NoResetAtRefusal q h → ∃ t, exec (.readZone q) s = .next t
        ∧ Replied q 0x04#8 .done (if q.data = [0#8] then zonePart0 h z else zonePart1 h z) none h t
        ∧ ZonePart0Laid h z (zonePart0 h z) ∧ ZonePart1Laid h z (zonePart1 h z)
        ∧ Keeps (replyFields q) h t)
    ∧ (Executed q 0x05#8 s → q.data = [] →
      let h := requestState q 0x05#8 s
      NoResetAtRefusal q h → ∃ t, exec (.readPlant q) s = .next t
        ∧ Replied q 0x05#8 .done (plantBytes h) none h t ∧ PlantLaid h (plantBytes h)
        ∧ Keeps (replyFields q) h t)
    ∧ (Executed q 0x08#8 s → q.data = [] →
      let h := requestState q 0x08#8 s
      NoResetAtRefusal q h → ∃ t, exec (.readNewcomers q) s = .next t
        ∧ Replied q 0x08#8 .done
          ([BitVec.ofNat 8 h.newcomers.length, if h.newcomerOverflow = true then 1#8 else 0#8] ++ h.newcomers)
          none h t
        ∧ Keeps (replyFields q) h t)

/-- O29. READ_SEGMENTS answers with the segments' standing in the seven bytes of 11.4 and clears both overflow
flags (R149); CLEAR_NEWCOMERS empties the Newcomer List and clears its flag (R166); WARM_RESET is answered DONE with the
warm reset pending (R177). The operation stands when its reply is refused (R170); a refused reply to WARM_RESET
is in O57. -/
def Obligations.ClearingRequestsAnswer : Prop :=
  ∀ (q : MgmtRequest) (s : State), q.data = [] →
    (Executed q 0x06#8 s →
      let h := requestState q 0x06#8 s
      NoResetAtRefusal q h → ∃ t, exec (.readSegments q) s = .next t
        ∧ Replied q 0x06#8 .done (segmentsBytes h) none h t ∧ SegmentsLaid h (segmentsBytes h)
        ∧ t.room.fwdOverflow = false ∧ t.plant.fwdOverflow = false
        ∧ Keeps ([.fwdOverflow .room, .fwdOverflow .plant] ++ replyFields q) h t)
    ∧ (Executed q 0x09#8 s →
      let h := requestState q 0x09#8 s
      NoResetAtRefusal q h → ∃ t, exec (.clearNewcomers q) s = .next t
        ∧ Replied q 0x09#8 .done [] none h t ∧ t.newcomers = [] ∧ t.newcomerOverflow = false
        ∧ Keeps ([.newcomers] ++ replyFields q) h t)
    ∧ (Executed q 0x0D#8 s →
      let h := requestState q 0x0D#8 s
      ownRoom h q.seg = true → ∃ t, exec (.warmReset q) s = .next t
        ∧ Replied q 0x0D#8 .done [] none h t ∧ t.mrs.warmResetPending = true
        ∧ Keeps ([.warmResetPending] ++ replyFields q) h t)

/-- O30. FETCH_EVENTS carries the two oldest records at most with the event-overflow flag, NO_DATA with an
empty queue, clears the late-overflow marker, and removes nothing yet, nor when its reply is refused (R170,
R179). A record is its kind, subject, detail and stamp, in five bytes (11.4). -/
def Obligations.FetchEventsCarries : Prop :=
  (∀ e : Event, EventLaid e (eventBytes e))
  ∧ ∀ (q : MgmtRequest) (s : State), Executed q 0x07#8 s → q.data = [] →
    let h := requestState q 0x07#8 s
    let carried := h.mrs.events.take 2
    NoResetAtRefusal q h → ∃ t, exec (.fetchEvents q) s = .next t
      ∧ Replied q 0x07#8 (if h.mrs.events = [] then .noData else .done)
          ([boolByte h.mrs.eventOverflow, byteOf carried.length] ++ carried.flatMap eventBytes)
          (some ⟨carried.length, h.mrs.eventOverflow⟩) h t
      ∧ t.mrs.events = h.mrs.events ∧ t.mrs.eventOverflow = h.mrs.eventOverflow
      ∧ t.mrs.attn = h.mrs.attn ∧ t.mrs.lateOverflow = false
      ∧ Keeps ([.events] ++ replyFields q) h t

/-- O31. SET_HOLIDAY sets the holiday record, inactive for a count of 0, and has every zone evaluated (R52);
CANCEL_OVERRIDE removes the zone's override and has it evaluated, or finds none and changes nothing (R50).
Both are answered DONE. By the model's choice the notices they cause are placed before the reply is offered,
which R50, R52, R169 and R170 leave open, so the reply's room is what the notices leave (log 30); without room
the reply is dropped and the operation stands (R170). -/
def Obligations.SetHolidayAndCancelOverride : Prop :=
  ∀ (q : MgmtRequest) (s : State),
    (∀ (l : LevelIx) (nh nl : Byte), q.data = [byteOf l.val, nh, nl] → Executed q 0x0B#8 s →
      let n := nh.toNat * 256 + nl.toNat
      let record : Holiday := if n = 0 then ⟨false, 0, 0⟩ else ⟨true, l, n⟩
      let h := requestState q 0x0B#8 s
      let e := evaluateAll (h.setHoliday record)
      Along Evaluated (List.finRange 16) (h.setHoliday record) e
      ∧ (NoResetAtRefusal q e → ∃ t, exec (.setHoliday q) s = .next t
        ∧ Replied q 0x0B#8 .done [] none e t ∧ t.holiday = record
        ∧ (∀ z : ZoneIx, t.zone z = evaluatedZone (h.setHoliday record) z)
        ∧ Keeps (replyFields q) e t
        ∧ Keeps ([.holiday] ++ evaluationFields ++ replyFields q) h t))
    ∧ (∀ z : ZoneIx, q.index.toNat = z.val → Executed q 0x0C#8 s → q.data = [] →
      let h := requestState q 0x0C#8 s
      let e := removeOverride z h
      ((h.zone z).override = none → e = h)
      ∧ ((h.zone z).override ≠ none → Evaluated z (setOverride z none h) e)
      ∧ (NoResetAtRefusal q e → ∃ t, exec (.cancelOverride q) s = .next t
        ∧ Replied q 0x0C#8 .done [] none e t
        ∧ t.zone z = (if (h.zone z).override = none then h.zone z
            else evaluatedZone (setOverride z none h) z)
        ∧ (t.zone z).override = none ∧ (∀ y, y ≠ z → t.zone y = h.zone y)
        ∧ ((h.zone z).override = none → Keeps (replyFields q) h t)
        ∧ Keeps (replyFields q) e t
        ∧ Keeps (evaluationFields ++ replyFields q) h t))

/-- O32. WRITE_ENTRY: an accepted write leaves the entry reading back as the bytes written and every other
entry as it was, and its DONE reply outstanding until the commit ends, nothing yet sent (R171, R172, R181
to R183). Data that says less than its bytes is read back in one form: a NODE entry of address 0x00 as the
default entry (R156), and a reference of kind NONE as NONE whatever its target byte (R25). By the model's
choice a Ti or a seed of 0xFF is accepted as 255 (log 31). -/
def Obligations.WriteEntryAccepted : Prop :=
  ∀ (q : MgmtRequest) (s : State), ∀ item, namedEntry q.table q.index = .ok item →
    Executed q 0x02#8 s →
    let h := requestState q 0x02#8 s
    writeForbidden h item q.data = false → (writeItem item q.data h).isSome = true →
    ∃ t, exec (.writeEntry q) s = .next t
      ∧ t.mrs.outstanding
        = some ⟨.committing item, q.src, q.seg, q.tag, 0x02#8, .done, [], none⟩
      ∧ (canonicalData item q.data = true → (entryBytes t item).take q.data.length = q.data)
      ∧ (∀ i, item = .node i → q.data[0]? = some 0#8 → t.nodeCfg i = NodeCfg.default)
      ∧ (∀ z, item = .zone z → q.data[6]? = some 0#8 → (t.zoneCfg z).schedule = .noRef)
      ∧ (∀ l, item = .link l → q.data[0]? = some 0#8 → t.work.links[l] = .noRef)
      ∧ Tables.sameBut item h.work t.work
      ∧ Keeps (writeFields item) h t

/-- O33. CLEAR_ENTRY: an accepted clear returns the entry to its default and leaves every other entry as it
was, its DONE reply outstanding until the commit ends (R171, R172). -/
def Obligations.ClearEntryAccepted : Prop :=
  ∀ (q : MgmtRequest) (s : State), ∀ item, namedEntry q.table q.index = .ok item →
    Executed q 0x03#8 s → q.data = [] →
    let h := requestState q 0x03#8 s
    clearForbidden h item = false → (clearItem item h).isSome = true →
    ∃ t, exec (.clearEntry q) s = .next t
      ∧ t.mrs.outstanding
        = some ⟨.committing item, q.src, q.seg, q.tag, 0x03#8, .done, [], none⟩
      ∧ Tables.sameAt item t.work Tables.default
      ∧ Tables.sameBut item h.work t.work
      ∧ Keeps (writeFields item) h t

/-- O34. What an accepted write or clear makes of the runtime fields: a NODE entry whose address, role, zone
or segment changes starts afresh, leaves the Drive Queue, and its new address leaves the Newcomer List
(R81, R157); a ZONE whose limits change has its setpoint evaluated against them (R6), after the
temperatures are recomputed for a new sensor timeout (R17, log 12); a lower fault threshold holds the error
counter (R120), and after a PLANT write heads are issued as R87 then allows. So does every accepted WRITE_ENTRY
and CLEAR_ENTRY (R171), with the events and notices of the evaluation (R39), and nothing beside. -/
def Obligations.AcceptedWriteEffects : Prop :=
  ∀ s : State,
    (∀ (i : NodeIx) (c : NodeCfg), (s.nodeCfg i).moved c = true →
      let t := applyNode i c s
      t.node i = NodeRt.reset ∧ (∀ j, j ≠ i → t.node j = s.node j)
        ∧ t.driveQueue = s.driveQueue.filter (fun e => e.node != i)
        ∧ t.newcomers = (if c.used = true then s.newcomers.filter (fun a => a != c.address)
            else s.newcomers)
        ∧ (hasBoiler t = hasBoiler s → t.pls = s.pls)
        ∧ (hasBoiler t ≠ hasBoiler s → t.pls = ⟨if hasBoiler t = true then .sync else .noBoiler,
            s.pls.question, 0, 0, none, none, none⟩ ∧ FlagRefreshed s t))
    ∧ (∀ (i : NodeIx) (c : NodeCfg), (s.nodeCfg i).moved c = false →
        Keeps [.work] s (applyNode i c s))
    ∧ (∀ (z : ZoneIx) (c : ZoneCfg),
      let t := applyZone z c s
      (t.zone z).resolverPart
          = (if (s.zoneCfg z).minLimit = c.minLimit ∧ (s.zoneCfg z).maxLimit = c.maxLimit
            then s.zone z else evaluatedZone (setZoneCfg z c s) z).resolverPart
        ∧ ((s.zoneCfg z).sensorTimeout ≠ c.sensorTimeout →
            (t.zone z).zoneTemp = zoneTempOf c.sensorTimeout (s.zone z).slot0 (s.zone z).slot1
              ∧ (t.zone z).floorTemp
                = floorTempOf c.sensorTimeout (s.zone z).slot0 (s.zone z).slot1)
        ∧ (t.zone z).reg = (s.zone z).reg ∧ (t.zone z).demand = (s.zone z).demand
        ∧ (t.zone z).integral = (s.zone z).integral ∧ (∀ y, y ≠ z → t.zone y = s.zone y))
    ∧ (∀ c : PlantCfg, (applyPlant c s).pls
        = { s.pls with errors := min s.pls.errors c.faultThreshold }
        ∧ (applyPlant c s).work = { s.work with plant := c }
        ∧ ThenValves [.work, .pls] Issued s (applyPlant c s))
    ∧ ∀ (q : MgmtRequest), ∀ item, namedEntry q.table q.index = .ok item →
      (Executed q 0x02#8 s →
        let h := requestState q 0x02#8 s
        writeForbidden h item q.data = false → (writeItem item q.data h).isSome = true →
        ∃ t, exec (.writeEntry q) s = .next t ∧ EntryTaken item h t)
      ∧ (Executed q 0x03#8 s → q.data = [] →
        let h := requestState q 0x03#8 s
        clearForbidden h item = false → (clearItem item h).isSome = true →
        ∃ t, exec (.clearEntry q) s = .next t ∧ EntryTaken item h t)

/-- O35. An executed request that fails a check is answered with the result of the first that fails, the
operation, the table, the index, the mode, the data, and nothing is written (R1, R3, R4, R120, R145, R156,
R157, R169, R171). WRONG_MODE is the result in RUN only: of every SYSTEM and KINDMAP write or clear; of a ZONE
write that would change enabled or overrun-path, and a clear of an entry with one of them on; of a PLANT write
that would change seed or polynomial, and a clear of an entry in which one is not its default; of a NODE write
that changes more than intake, and a clear of a used entry. NODE, ZONE and PLANT data of a wrong length is
BAD_VALUE in both modes (log 11), and so is a NODE write that R156 refuses by its values. A table code that is
none of the eight is BAD_TABLE, and an index that its table does not have BAD_INDEX (R169). By the model's choice a
Ti or a seed of 0xFF is not (log 31). -/
def Obligations.RefusedRequests : Prop :=
  (∀ (table index : Byte),
    (∀ item, namedEntry table index = .ok item ↔ Names table.toNat index.toNat item)
    ∧ ∀ r, namedEntry table index = .error r ↔ (∀ item, ¬Names table.toNat index.toNat item)
        ∧ r = (if 1 ≤ table.toNat ∧ table.toNat ≤ 8 then .badIndex else .badTable))
  ∧ ∀ (c : Instr) (s : State), ∀ p, requestOf c = some p → Executed p.1 p.2 s →
    let h := requestState p.1 p.2 s
    (NoResetAtRefusal p.1 h → ∀ r, refusalOf p.1 p.2 h = some r → ∃ t, exec c s = .next t
      ∧ Replied p.1 p.2 r [] none h t ∧ Keeps (replyFields p.1) h t)
    ∧ (p.2 = 0x02#8 ∨ p.2 = 0x03#8 → s.mode = .run →
      ∀ item, namedEntry p.1.table p.1.index = .ok item →
      (item = .system ∨ ∃ k, item = .kindMap k) → refusalOf p.1 p.2 h = some .wrongMode)
    ∧ (s.mode = .commission → refusalOf p.1 p.2 h ≠ some .wrongMode)
    ∧ ∀ item, namedEntry p.1.table p.1.index = .ok item →
      let data := p.1.data
      let wrongMode := refusalOf p.1 p.2 h = some .wrongMode
      let badValue := refusalOf p.1 p.2 h = some .badValue
      ((∃ l, item = .level l) ∨ (∃ n, item = .profile n) ∨ (∃ l, item = .link l) → ¬wrongMode)
      ∧ (∀ z, item = .zone z → p.2 = 0x02#8 →
        (data.length ≠ 18 → badValue)
          ∧ (data.length = 18 → s.mode = .run →
            (wrongMode ↔ ¬((data.headD 0).getLsbD 0 = (s.zoneCfg z).enabled
              ∧ (data.headD 0).getLsbD 3 = (s.zoneCfg z).overrunPath))))
      ∧ (∀ z, item = .zone z → p.2 = 0x03#8 → s.mode = .run →
        (wrongMode ↔ (s.zoneCfg z).enabled = true ∨ (s.zoneCfg z).overrunPath = true))
      ∧ (item = .plant → p.2 = 0x02#8 →
        (data.length ≠ 21 → badValue)
          ∧ (data.length = 21 → s.mode = .run →
            (wrongMode ↔ ¬(data[17]? = some s.work.plant.seed
              ∧ data[18]? = some (if s.work.plant.polynomial = .polyA then 0#8 else 1#8)))))
      ∧ (item = .plant → p.2 = 0x03#8 → s.mode = .run →
        (wrongMode ↔ s.work.plant.seed ≠ 0x5A#8 ∨ s.work.plant.polynomial ≠ .polyA))
      ∧ (∀ i, item = .node i → p.2 = 0x02#8 →
        (data.length ≠ 5 → badValue)
          ∧ (data.length = 5 → s.mode = .run →
            (wrongMode ↔ (if data.headD 0 = 0#8 then (s.nodeCfg i).address ≠ 0#8
              else data.take 4 ≠ (nodeCfgBytes (s.nodeCfg i)).take 4)))
          ∧ (data.length = 5 → data.headD 0 ≠ 0#8 → ¬wrongMode →
            (badValue ↔ 0x7E < (data.headD 0).toNat ∨ data.headD 0 = s.ownAddress
              ∨ (∃ j, j ≠ i ∧ (s.nodeCfg j).address = data.headD 0) ∨ rdNode data = none)))
      ∧ (∀ i, item = .node i → p.2 = 0x03#8 → s.mode = .run →
        (wrongMode ↔ (s.nodeCfg i).address ≠ 0#8))

/-- O36. A request in RUN from a source that is not a MANAGER is answered DENIED, and MGMT_REQUEST_BAD_OP, an
operation code that is none of the thirteen, is answered BAD_OP; neither does anything else (R168, R169), nor
when its reply is refused (R170). -/
def Obligations.DeniedAndBadOperations : Prop :=
  ∀ s : State,
    (∀ c : Instr, ∀ p, requestOf c = some p → Admitted p.1.seg (requestFrame p.1 p.2) s →
      p.1.dst = s.ownAddress → s.mrs.outstanding = none → s.mode = .run →
      isManager s (findNode s p.1.src) = false →
      let h := requestState p.1 p.2 s
      NoResetAtRefusal p.1 h → ∃ t, exec c s = .next t
        ∧ Replied p.1 p.2 .denied [] none h t ∧ Keeps (replyFields p.1) h t)
    ∧ ∀ (q : MgmtRequest) (op : Byte), noOperation op = true → Executed q op s →
      let h := requestState q op s
      NoResetAtRefusal q h → ∃ t, exec (.mgmtRequestBadOp q op) s = .next t
        ∧ Replied q op .badOp [] none h t ∧ Keeps (replyFields q) h t

/-- O37. A request that arrives while a reply is outstanding is dropped (R168), and a reply its queue
refuses ends the outstanding reply at once, with no reset while none is pending (R170). Of the requests
themselves O28 to O31, O35, O36, O38 and O39 say so, of COMMIT_END O40, and of a pending reset O57. A queue has
room while its segment is not NO_SUPPLY and it holds fewer than eight frames. -/
def Obligations.DroppedRequestsAndReplies : Prop :=
  ∀ s : State,
    (∀ c : Instr, ∀ p, requestOf c = some p → Admitted p.1.seg (requestFrame p.1 p.2) s →
      p.1.dst = s.ownAddress → s.mrs.outstanding.isSome = true →
      exec c s = .next (requestState p.1 p.2 s))
    ∧ (∀ x : Segment, ownRoom s x = true ↔ (s.seg x).health ≠ .noSupply ∧ (s.seg x).own.length < 8)
    ∧ ∀ r : Reply, ownRoom s r.seg = false → s.mrs.warmResetPending = false →
      (buildReply r s).mrs.outstanding = none ∧ Keeps [.outstanding] s (buildReply r s)

/-- O38. The configuration check gives the first failure of R173's six checks in their order. SET_MODE_RUN in
COMMISSION with none enters RUN: MODE_CHANGED, every enabled zone STARTING with its period armed and its first
two candidate nodes bound and every other zone DISABLED (R12, R56, R61), the targets of disabled zones'
actuators derived and commands issued (R83, R98), the coordinator and the supervisor started (R101, R116,
R119), the reply outstanding until the mode is stored (R174). With a failure it is answered CONFIG_INVALID, and
in RUN DONE, and nothing changes. -/
def Obligations.SetModeRun : Prop :=
  ∀ (q : MgmtRequest) (s : State), Executed q 0x0A#8 s → q.data = [1#8] →
    let h := requestState q 0x0A#8 s
    configCheck s.work = (checkFailures s.work).head? ∧ ∃ t, exec (.setModeRun q) s = .next t
      ∧ (s.mode = .commission → configCheck s.work = none →
          t.mode = .run ∧ t.runEntryAge = 0
            ∧ t.mrs.outstanding
              = some ⟨.committing .mode, q.src, q.seg, q.tag, 0x0A#8, .done, [], none⟩
            ∧ t.mrs.events = (addEvent (.modeChanged .run) h).mrs.events
            ∧ t.mrs = { (addEvent (.modeChanged .run) h).mrs with outstanding := t.mrs.outstanding }
            ∧ (∀ z : ZoneIx, (t.zone z).regulatorPart
                  = startedPart (h.zoneCfg z).enabled (h.zoneCfg z) (slotNodes h.work z)
                ∧ (t.zone z).resolverPart = (h.zone z).resolverPart
                ∧ (t.zone z).valveTarget = (h.zone z).valveTarget)
            ∧ ThenValves [.mode, .runEntryAge, .outstanding, .events, .regulation, .pco, .pls]
              EntryDriven h t
            ∧ t.pco = ⟨false, h.work.plant.minOff, .off, none,
                if hasBoiler h = true then some h.work.plant.demandPeriod else none, false, 0, 0,
                !hasBoiler h⟩
            ∧ t.pls = ⟨if hasBoiler h = true then .sync else .noBoiler,
                if h.work.plant.seed = 0#8 then 1#8 else h.work.plant.seed, 0, 0, none, none, none⟩
            ∧ Keeps ([.mode, .runEntryAge, .outstanding, .events, .regulation, .pco, .pls]
                ++ issueFields) h t)
      ∧ (s.mode = .commission → ∀ f, configCheck s.work = some f → NoResetAtRefusal q h →
          Replied q 0x0A#8 .configInvalid (checkFailureBytes f) none h t ∧ Keeps (replyFields q) h t)
      ∧ (s.mode = .run → NoResetAtRefusal q h →
          Replied q 0x0A#8 .done [] none h t ∧ Keeps (replyFields q) h t)

/-- O39. SET_MODE_COMMISSION in RUN leaves RUN: MODE_CHANGED, every zone at rest, the Drive Queue emptied with
each QUEUED actuator IDLE and no MOVING one's target pending, the burner off, a last BOILER_DEMAND without
release placed as R114 says unless PLANT is NO_SUPPLY, the flow path and the open demand kept, the reply
outstanding until the mode is stored (R13, R61, R97, R115, R119, R175). What log 14 decides is that the last flow
target is kept where no last BOILER_DEMAND is built. In COMMISSION it is answered DONE and nothing changes. -/
def Obligations.SetModeCommission : Prop :=
  ∀ (q : MgmtRequest) (s : State), Executed q 0x0A#8 s → q.data = [0#8] →
    let h := requestState q 0x0A#8 s
    ∃ t, exec (.setModeCommission q) s = .next t
      ∧ (s.mode = .run →
          t.mode = .commission
            ∧ t.mrs.outstanding
              = some ⟨.committing .mode, q.src, q.seg, q.tag, 0x0A#8, .done, [], none⟩
            ∧ t.mrs.events = (addEvent (.modeChanged .commission) h).mrs.events
            ∧ t.mrs = { (addEvent (.modeChanged .commission) h).mrs with outstanding := t.mrs.outstanding }
            ∧ (∀ z : ZoneIx, (t.zone z).atRest ∧ (t.zone z).resolverPart = (h.zone z).resolverPart)
            ∧ t.driveQueue = []
            ∧ (∀ i : NodeIx, (t.node i).act = { (h.node i).act with
                motion := if (h.node i).act.motion = .queued then .idle else (h.node i).act.motion
                pending := if (h.node i).act.motion = .moving then none else (h.node i).act.pending })
            ∧ t.pco.burnerOn = false ∧ t.pco.burnerTimer = h.work.plant.minOff ∧ t.pco.pump = .off
            ∧ t.pco.overrunTimer = none ∧ t.pco.demandTimer = none
            ∧ t.pls = ⟨if hasBoiler h = true then .sync else .noBoiler, h.pls.question, 0, 0, none,
                none, none⟩
            ∧ t.pco.flowPathOpen = h.pco.flowPathOpen ∧ t.pco.openDemand = h.pco.openDemand
            ∧ t.pco.plantAvailable = plantAvailableOf t.pls
            ∧ (∀ i, findBoiler h = some i → ownRoom h .plant = true →
                (⟨(h.nodeCfg i).address, h.ownAddress, .boilerDemand 0 false false h.pls.question⟩
                  : OwnFrame) ∈ t.plant.own)
            ∧ (∀ i, findBoiler h = some i → h.plant.health ≠ .noSupply →
                t.pco.lastFlow = 0 ∧ DemandPlaced ⟨(h.nodeCfg i).address, h.ownAddress,
                  .boilerDemand 0 false false h.pls.question⟩ h.plant.own t.plant.own)
            ∧ (findBoiler h = none ∨ h.plant.health = .noSupply →
                t.plant.own = h.plant.own ∧ t.pco.lastFlow = h.pco.lastFlow)
            ∧ Keeps [.mode, .outstanding, .events, .regulation, .valveTargets, .actuators,
                .driveQueue, .pco, .pls, .own .plant] h t)
      ∧ (s.mode = .commission → NoResetAtRefusal q h →
          Replied q 0x0A#8 .done [] none h t ∧ Keeps (replyFields q) h t)

/-- O40. COMMIT_END writes the entry, or the mode, being committed into the Configuration Store, touches no
other entry of it, and places the DONE reply that waited, or ends it when its queue is full or its segment
NO_SUPPLY (R170); without a commit it does nothing (R172). -/
def Obligations.CommitEndStores : Prop :=
  ∀ s : State,
    (∀ r, s.mrs.outstanding = some r → ∀ item, committing s = some item → ownRoom s r.seg = true →
      ∃ t, exec .commitEnd s = .next t
        ∧ Tables.sameAt item t.store s.work ∧ Tables.sameBut item s.store t.store
        ∧ t.storedMode = (if item = .mode then s.mode else s.storedMode)
        ∧ t.mrs.outstanding = some { r with phase := .placed }
        ∧ (t.seg r.seg).own = (s.seg r.seg).own
          ++ [⟨r.requester, s.ownAddress, .mgmtReply r.tag r.op r.result r.data⟩]
        ∧ Keeps [.store, .storedMode, .outstanding, .own r.seg] s t)
    ∧ (∀ r, s.mrs.outstanding = some r → ∀ item, committing s = some item →
      ¬((s.seg r.seg).health ≠ .noSupply ∧ (s.seg r.seg).own.length < 8) →
      s.mrs.warmResetPending = false →
      ∃ t, exec .commitEnd s = .next t
        ∧ Tables.sameAt item t.store s.work ∧ Tables.sameBut item s.store t.store
        ∧ t.storedMode = (if item = .mode then s.mode else s.storedMode)
        ∧ t.mrs.outstanding = none ∧ Keeps [.store, .storedMode, .outstanding] s t)
    ∧ (committing s = none → exec .commitEnd s = .next s)

/-! ### The bus -/

/-- O41. TRANSMIT_START on an UP segment that is not transmitting sends a frame held for retry, else the head
of the own-frame queue, else the head of the forward queue (R151); a frame that leaves OQ-P lets the Valve
Drive Scheduler issue as R87 allows (R148). LOST_ARBITRATION at a bit sent recessive holds the frame for retry and
goes on receiving the winner's (R152, log 9). A frame goes on the line in characters of ten bits (R132), and one that
the part builds has the payload of 11.2 and the check of R133. -/
def Obligations.TransmitStartAndLostArbitration : Prop :=
  (∀ f : Frame, LineLaid f)
  ∧ (∀ f : OwnFrame, f.frame.dst = f.dst ∧ f.frame.src = f.src
      ∧ PayloadLaid f.msg f.frame.kind f.frame.payload
      ∧ f.frame.chk = checkOf (f.frame.dst :: f.frame.src :: f.frame.kind
        :: BitVec.ofNat 8 f.frame.payload.length :: f.frame.payload))
  ∧ ∀ (x : Segment) (s : State), (s.seg x).health = .up →
    (∀ k, (s.seg x).tx = some k → k.held = true →
      ∃ t, exec (.transmitStart x) s = .next t ∧ (t.seg x).tx = some ⟨k.frame, false⟩
        ∧ (t.seg x).rx = .waitFree ∧ Keeps [.tx x, .rx x] s t)
    ∧ ((s.seg x).tx = none →
      ∃ t, exec (.transmitStart x) s = .next t
        ∧ (∀ f, (s.seg x).own.head? = some f →
            (t.seg x).tx = some ⟨.own f, false⟩ ∧ (t.seg x).rx = .waitFree
              ∧ (s.seg x).own.tail <+: (t.seg x).own
              ∧ (x = .plant → Issued (s.setSeg .plant { s.plant with
                  tx := some ⟨.own f, false⟩, rx := .waitFree, own := s.plant.own.tail }) t)
              ∧ (x = .room → t.room.own = s.room.own.tail ∧ Keeps [.tx x, .rx x, .own x] s t)
              ∧ Keeps ([.tx x, .rx x, .own x] ++ issueFields) s t)
        ∧ ((s.seg x).own = [] → ∀ f, (s.seg x).fwd.head? = some f →
            (t.seg x).tx = some ⟨.forwarded f, false⟩ ∧ (t.seg x).rx = .waitFree
              ∧ (t.seg x).fwd = (s.seg x).fwd.tail ∧ Keeps [.tx x, .rx x, .fwd x] s t)
        ∧ ((s.seg x).own = [] → (s.seg x).fwd = [] →
            (t.seg x).rx = .lineFree ∧ Keeps [.rx x] s t))
    ∧ ∀ k, (s.seg x).tx = some k → k.held = false → ∀ bit : Nat,
        k.frame.frame.lineBits[bit]? = some true →
        ∃ t, exec (.lostArbitration x bit) s = .next t ∧ (t.seg x).tx = some ⟨k.frame, true⟩
          ∧ (t.seg x).rx = .receiving (k.frame.frame.lineBits.take bit ++ [false])
          ∧ Keeps [.tx x, .rx x] s t

/-- O42. TRANSMISSION_COMPLETE ends the frame being sent and tells the owner (R153): a VALVE_CMD starts its
motion timer (R89), a ROLL_CALL opens the roll window (R162), a BOILER_DEMAND opens an answer window when the
mode at its completion is RUN, MISSED being charged for a window it ends unjudged (R123, R131, log 29), and a
forwarded frame or a ZONE_NOTICE has no further effect (R55). A MGMT_REPLY, with no warm reset pending, ends the
outstanding reply; one to FETCH_EVENTS removes the records it carried, keeps ATTN as R180 has it, and clears the
event-overflow flag it reported unless an event was lost since (R170, R179). -/
def Obligations.TransmissionCompleteTellsOwner : Prop :=
  ∀ (x : Segment) (s : State), (s.seg x).health = .up →
    ∀ k, (s.seg x).tx = some k → k.held = false →
    ∃ t, exec (.transmissionComplete x) s = .next t
      ∧ (∀ f, k.frame = .forwarded f →
          (t.seg x).tx = none ∧ (t.seg x).rx = .waitFree ∧ Keeps [.tx x, .rx x] s t)
      ∧ (∀ f, k.frame = .own f → match f.msg with
        | .zoneNotice .. =>
          (t.seg x).tx = none ∧ (t.seg x).rx = .waitFree ∧ Keeps [.tx x, .rx x] s t
        | .valveCmd i n _ =>
          (t.seg x).tx = none ∧ (t.seg x).rx = .waitFree
            ∧ (t.node i).act = (if (s.node i).act.motion = .moving
                  ∧ (s.node i).act.lastIssue = some n ∧ (s.node i).act.timer = none then
                { (s.node i).act with timer := some s.work.plant.motionTimeout }
              else (s.node i).act)
            ∧ (∀ j, j ≠ i → (t.node j).act = (s.node j).act)
            ∧ Keeps [.tx x, .rx x, .actuators] s t
        | .rollCall _ =>
          (t.seg x).tx = none ∧ (t.seg x).rx = .waitFree
            ∧ (t.seg x).roll = (if (s.seg x).roll.phase = .calling then
                { (s.seg x).roll with phase := .window } else (s.seg x).roll)
            ∧ Keeps [.tx x, .rx x, .roll x] s t
        | .boilerDemand flow release _ _ =>
          (t.seg x).tx = none ∧ (t.seg x).rx = .waitFree
            ∧ (if s.mode = .run ∧ s.pls.plantState ≠ .noBoiler then
                t.pls.window = some ⟨.closedPart, flow, release, false⟩
                  ∧ (s.pls.window.all (fun w => w.judged) = true →
                      t.pls = { s.pls with window := t.pls.window }
                        ∧ Keeps [.tx x, .rx x, .pls] s t)
                  ∧ (s.pls.window.all (fun w => w.judged) = false →
                      ChargedFrom s.work.plant.faultThreshold s.pls t.pls ∧ FlagRefreshed s t
                        ∧ t.mrs = (if s.pls.plantState = .ok ∧ t.pls.plantState = .fault then
                            addEvent (.plantFault .missed) s else s).mrs
                        ∧ Keeps [.tx x, .rx x, .pls, .pco, .events] s t)
              else Keeps [.tx x, .rx x] s t)
        | .mgmtReply .. =>
          s.mrs.warmResetPending = false →
          (t.seg x).tx = none ∧ (t.seg x).rx = .waitFree ∧ t.mrs.outstanding = none
            ∧ (∀ g, s.mrs.outstanding.bind Reply.fetch = some g →
                t.mrs.events = s.mrs.events.drop g.count ∧ t.mrs.attn = !t.mrs.events.isEmpty
                  ∧ t.mrs.eventOverflow
                    = (s.mrs.eventOverflow && !(g.flagReported && !s.mrs.lateOverflow)))
            ∧ (s.mrs.outstanding.bind Reply.fetch = none →
                Keeps [.tx x, .rx x, .outstanding] s t)
            ∧ Keeps [.tx x, .rx x, .outstanding, .events] s t)

/-- O43. SEGMENT_NO_SUPPLY empties the segment: no frame queued or in transmission, each abandoned and its owner
told, so that a reply or a roll call held there ends (R135, R154, R162, R170); the overflow flag of its forward
queue set when that held a frame (R149); then SEGMENT_DOWN raised, a reply abandoned before being outstanding no
longer (R178); a roll window ended without charge (R165); on PLANT every actuator whose command had not
completed loses it, and one whose motion timer runs keeps its slot (R90). A NO_SUPPLY segment stays as it is. A
warm reset that waits for a reply the segment does not hold waits on (R177); a reply it does hold is in O57, and by
O6 one is outstanding while a warm reset is pending. -/
def Obligations.SupplyLost : Prop :=
  ∀ (x : Segment) (s : State),
    ((s.seg x).health = .noSupply → exec (.segmentNoSupply x) s = .next s)
    ∧ ((s.seg x).health ≠ .noSupply →
      (s.mrs.warmResetPending = true → s.mrs.outstanding.isSome = true ∧ ¬ReplyHeld s x) →
      ∃ t, exec (.segmentNoSupply x) s = .next t
        ∧ (t.seg x).health = .noSupply ∧ (t.seg x).own = [] ∧ (t.seg x).fwd = []
        ∧ (t.seg x).tx = none ∧ (t.seg x).rx = .waitFree
        ∧ (t.seg x).fwdOverflow = ((s.seg x).fwdOverflow || !(s.seg x).fwd.isEmpty)
        ∧ (t.seg x).roll.phase ≠ .window
        ∧ ((s.seg x).roll.phase = .window →
            (t.seg x).roll = { (s.seg x).roll with phase := .idle, group := none })
        ∧ t.mrs.events = (addEvent (.segmentDown x .noSupply) s).mrs.events
        ∧ t.mrs = (addEvent (.segmentDown x .noSupply) (setOutstanding t.mrs.outstanding s)).mrs
        ∧ (ReplyHeld s x → t.mrs.outstanding = none)
        ∧ (¬ReplyHeld s x → t.mrs.outstanding = s.mrs.outstanding)
        ∧ ((s.seg x).roll.phase = .calling → RollCallHeld s x →
            (t.seg x).roll = { (s.seg x).roll with phase := .idle, group := none })
        ∧ ((s.seg x).roll.phase = .calling → ¬RollCallHeld s x → (t.seg x).roll = (s.seg x).roll)
        ∧ ((s.seg x).roll.phase = .idle → (t.seg x).roll = (s.seg x).roll)
        ∧ (∀ i : NodeIx, x = .room ∨ (s.node i).act.timer.isSome = true → ¬CommandHeld s x i →
            (t.node i).act = (s.node i).act)
        ∧ (x = .plant → ∀ i : NodeIx,
            (s.node i).act.motion = .moving → (s.node i).act.timer = none →
            (t.node i).act.motion = .idle ∧ (t.node i).act.lastCmd = none
              ∧ (t.node i).act.pending = none)
        ∧ (∀ i : NodeIx, (s.node i).act.motion ≠ .moving → (t.node i).act = (s.node i).act)
        ∧ Keeps [.health x, .rx x, .tx x, .own x, .fwd x, .fwdOverflow x, .roll x, .events,
            .outstanding, .actuators] s t)

/-- O44. SEGMENT_STUCK makes an UP segment on which the part does not transmit STUCK, raises SEGMENT_DOWN and
ends a roll window, and keeps its queues and a frame held for retry (R136, R165). SEGMENT_HEALTH_UP makes a
STUCK or NO_SUPPLY segment UP and raises SEGMENT_UP; on PLANT, issue resumes: heads of the Drive Queue leave
it, their VALVE_CMDs join OQ-P and their actuators become MOVING, until a condition of R87 fails (R137). -/
def Obligations.SegmentStuckAndUp : Prop :=
  ∀ (x : Segment) (s : State),
    ((s.seg x).health = .up → transmitting s x = false →
      ∃ t, exec (.segmentStuck x) s = .next t ∧ (t.seg x).health = .stuck
        ∧ (t.seg x).rx = .waitFree
        ∧ (t.seg x).roll = (if (s.seg x).roll.phase = .window then
            { (s.seg x).roll with phase := .idle, group := none } else (s.seg x).roll)
        ∧ t.mrs = (addEvent (.segmentDown x .stuck) s).mrs
        ∧ Keeps [.health x, .rx x, .roll x, .events] s t)
    ∧ ((s.seg x).health ≠ .up ∨ transmitting s x = true → exec (.segmentStuck x) s = .next s)
    ∧ ((s.seg x).health ≠ .up →
      ∃ t, exec (.segmentHealthUp x) s = .next t ∧ (t.seg x).health = .up
        ∧ t.mrs = (addEvent (.segmentUp x (s.seg x).health) s).mrs
        ∧ (x = .room → Keeps [.health x, .rx x, .events] s t)
        ∧ (x = .plant → ThenValves [.health x, .rx x, .events] Issued s t)
        ∧ Keeps ([.health x, .rx x, .events] ++ issueFields) s t)
    ∧ ((s.seg x).health = .up → exec (.segmentHealthUp x) s = .next s)

/-! ### Time -/

/-- O45. MINUTE_TICK: the Week Clock advances first, modulo one week when it is valid, and then each of the
four blocks that count minutes takes the tick as a whole, in an order that the command gives and that may be
any (R36, log 2), as R41, R58, R109 with R111, and R161 say of each. So the holiday and every TEMPORARY override
count down (R49, R53) and every zone is evaluated (R41); every bound slot ages (R16), every window timer, the
run-entry age and every period timer count (R56, R57, R67), and a zone whose period is over has its regulation
event (R58); the burner and overrun timers count (R109, R111); each roll-call interval counts or is re-armed
(R161). Tables, presence but for seen flags, and supervisor stay. -/
def Obligations.MinuteTickCounts : Prop :=
  (∀ l : List TickBlock, l.Perm [.resolver, .regulator, .coordinator, .rollCall] ↔
    ∃ o, blockOrder o = l)
  ∧ ∀ (o : TickOrder) (s : State), ∃ t, exec (.minuteTick o) s = .next t
    ∧ (let clock : Clock :=
        if s.clock.valid = true then ⟨(s.clock.minute + 1) % 10080, true⟩ else s.clock
      t.clock = clock ∧ Along TickTaken (blockOrder o) (s.setClock clock) t)
    ∧ t.holiday = (if s.holiday.active = true then
        (if s.holiday.minutes ≤ 1 then ⟨false, 0, 0⟩
          else { s.holiday with minutes := s.holiday.minutes - 1 })
      else s.holiday)
    ∧ t.runEntryAge = min (s.runEntryAge + 1) 255
    ∧ t.pco.burnerTimer = s.pco.burnerTimer - 1 ∧ t.pco.burnerOn = s.pco.burnerOn
    ∧ t.pco.overrunTimer = minuteOn s.pco.overrunTimer
    ∧ (∀ z : ZoneIx, (t.zone z).slot0 = agedSlot (s.zone z).slot0
        ∧ (t.zone z).slot1 = agedSlot (s.zone z).slot1
        ∧ (t.zone z).periodTimer = (s.zone z).periodTimer.map (fun n =>
            if n ≤ 1 then (s.zoneCfg z).period else n - 1)
        ∧ (¬(∃ n, (s.zone z).periodTimer = some n ∧ n ≤ 1) →
            (t.zone z).windowTimer = minuteOn (s.zone z).windowTimer))
    ∧ (∀ z : ZoneIx, ∀ v, (s.zone z).override = some v → ∀ n, v.kind = .temporary n →
        (t.zone z).override = (if n ≤ 1 then none else some ⟨.temporary (n - 1), v.setpoint⟩))
    ∧ (∀ x : Segment, (t.seg x).roll.interval = (if (s.seg x).roll.interval ≤ 1 then
        s.work.system.rollInterval else (s.seg x).roll.interval - 1))
    ∧ (∀ i : NodeIx, (t.node i).presence = (s.node i).presence
        ∧ (t.node i).missCount = (s.node i).missCount)
    ∧ Keeps ([.clock, .holiday, .runEntryAge, .pco, .regulation, .setpoints, .valveTargets, .events,
        .presence, .roll .room, .roll .plant, .own .room] ++ issueFields) s t

/-- O46. An evaluation resolves the zone's reference by the clock: a walk of at most four links (R28), the
profile number of the day (R29), the last switch point at or before the minute of day (R30), or the carry to
the day before (R31), with the outcomes of R27. It writes the outcome (R32), removes an UNTIL_NEXT override of
another placement level (R48), takes the first line of R42's table that applies, clamps it (R43), and, when
setpoint or source has changed, appends the notices of the zone to OQ-R in rising index order as far as there
is room (R54, R148); every other zone stays. -/
def Obligations.EvaluationSettlesAndNotices : Prop :=
  ∀ (z : ZoneIx) (s : State),
    let t := evaluate z s
    Evaluated z s t ∧ Resolves s.work s.clock (s.zoneCfg z).schedule (resolveZone z s)
      ∧ t.zone z = evaluatedZone s z ∧ (∀ y, y ≠ z → t.zone y = s.zone y)
      ∧ t.room.own = s.room.own
        ++ (if ((t.zone z).setpoint ≠ (s.zone z).setpoint ∨ (t.zone z).source ≠ (s.zone z).source)
              ∧ s.room.health ≠ .noSupply then
            (noticesOf t z).take (8 - s.room.own.length) else [])
      ∧ t.mrs = (match (t.zone z).schedFault with
        | some k => if (s.zone z).schedFault = some k then s else addEvent (.scheduleFault z k) s
        | none => s).mrs
      ∧ Keeps evaluationFields s t

/-- O47. HOLIDAY_END ends an active holiday and has every zone evaluated in rising order (R53);
TEMPORARY_OVERRIDE_END removes a TEMPORARY override and has its zone evaluated (R49), each with its events and
notices (R39). By the model's choice each acts at any value of its count (log 1). With none running they do
nothing. -/
def Obligations.HolidayAndOverrideEnd : Prop :=
  ∀ s : State,
    (s.holiday.active = true → ∃ t, exec .holidayEnd s = .next t ∧ t.holiday = ⟨false, 0, 0⟩
      ∧ (∀ z : ZoneIx, t.zone z = evaluatedZone (s.setHoliday ⟨false, 0, 0⟩) z)
      ∧ Along Evaluated (List.finRange 16) (s.setHoliday ⟨false, 0, 0⟩) t
      ∧ Keeps ([.holiday] ++ evaluationFields) s t)
    ∧ (s.holiday.active = false → exec .holidayEnd s = .next s)
    ∧ ∀ z : ZoneIx,
      (isTemporary (s.zone z).override = true →
        ∃ t, exec (.temporaryOverrideEnd z) s = .next t ∧ (t.zone z).override = none
          ∧ t.zone z = evaluatedZone (setOverride z none s) z ∧ Evaluated z (setOverride z none s) t
          ∧ (∀ y, y ≠ z → t.zone y = s.zone y) ∧ Keeps evaluationFields s t)
      ∧ (isTemporary (s.zone z).override = false → exec (.temporaryOverrideEnd z) s = .next s)

/-- O48. Counts that run out: WINDOW_TIMER_RUN_OUT makes the zone's window timer absent and leaves its state
(R67); BURNER_TIMER_RUN_OUT leaves the burner timer at 0 (R109); ANSWER_WINDOW_OPEN_PART moves an open
window to its open part; and ANSWER_WINDOW_CLOSE ends a window in its open part and charges MISSED when it was
not judged (R124, R129). By the model's choice an expiry acts at any value of its count (log 1), and
ANSWER_WINDOW_CLOSE does nothing to a window in its closed part (log 24). -/
def Obligations.CountsRunOut : Prop :=
  ∀ s : State,
    (∀ z : ZoneIx, ∃ t, exec (.windowTimerRunOut z) s = .next t
      ∧ t.zone z = { s.zone z with windowTimer := none } ∧ (∀ y, y ≠ z → t.zone y = s.zone y)
      ∧ Keeps [.regulation] s t)
    ∧ (∃ t, exec .burnerTimerRunOut s = .next t ∧ t.pco = { s.pco with burnerTimer := 0 }
      ∧ Keeps [.pco] s t)
    ∧ (∀ w, s.pls.window = some w →
      (∃ t, exec .answerWindowOpenPart s = .next t
        ∧ t.pls = { s.pls with window := some { w with part := .openPart } } ∧ Keeps [.pls] s t)
      ∧ (w.part = .openPart → ∃ t, exec .answerWindowClose s = .next t ∧ t.pls.window = none
        ∧ (w.judged = true → t.pls = { s.pls with window := none } ∧ Keeps [.pls] s t)
        ∧ (w.judged = false → ChargedFrom s.work.plant.faultThreshold s.pls t.pls
          ∧ t.mrs = (if s.pls.plantState = .ok ∧ t.pls.plantState = .fault then
              addEvent (.plantFault .missed) s else s).mrs
          ∧ FlagRefreshed s t ∧ Keeps [.pls, .pco, .events] s t)))
    ∧ (s.pls.window.all (fun w => w.part == .closedPart) = true →
        exec .answerWindowClose s = .next s)
    ∧ (s.pls.window = none → exec .answerWindowOpenPart s = .next s)

/-- O49. REGULATION_EVENT re-arms the period timer (R56), moves the zone to the new state, computes D and I
by it (R60, R71 to R75), the previous temperature (R76) and the window timer (R64, R66), hands over
V = (D + 5) / 10 (R74, R77) and raises the sensor events (R78); the Valve Drive Scheduler then derives the
target of every actuator of the zone and places it, and issues as R87 allows (R82, R83, R85); other zones stay.
By the model's choice the event is taken at any value of the period timer (log 1). A zone without a period timer
has no event. -/
def Obligations.RegulationEvent : Prop :=
  ∀ (z : ZoneIx) (s : State),
    let c := s.zoneCfg z
    let v := s.zone z
    let r := newRegState c s.runEntryAge v
    let warm := workingTemp c v
    let i := if v.reg = .starting ∧ warm.isSome = true then 0 else v.integral
    (v.periodTimer.isSome = true →
      ∃ t, exec (.regulationEvent z) s = .next t
        ∧ (t.zone z).periodTimer = some c.period ∧ (t.zone z).reg = r
        ∧ (t.zone z).prevTemp = warm
        ∧ (t.zone z).windowTimer = (if r = .windowOpen then
            (if v.reg = .windowOpen then v.windowTimer else some c.windowHold) else none)
        ∧ (t.zone z).valveTarget = ((t.zone z).demand + 5) / 10
        ∧ (r = .disabled → (t.zone z).demand = 0 ∧ (t.zone z).integral = 0)
        ∧ (r = .starting ∨ r = .windowOpen ∨ r = .floorHold →
            (t.zone z).demand = 0 ∧ (t.zone z).integral = i)
        ∧ (∀ temp, warm = some temp → r = .normal →
            let p := clamp (-1000) 1000 (Int.tdiv ((v.setpoint - temp) * 1000) c.pb)
            let held := s.pco.plantAvailable = false ∨ ActuatorMoves s z ∨ v.demand = 1000
            ((t.zone z).integral : Int) = (if c.ti = 0 then 0
              else if 0 < p ∧ held then (i : Int)
              else clamp 0 1000 (i + Int.tdiv p c.ti))
            ∧ ((t.zone z).demand : Int) = clamp 0 1000 (p + (t.zone z).integral))
        ∧ (t.zone z).resolverPart = v.resolverPart ∧ (t.zone z).slot0 = v.slot0
        ∧ (t.zone z).slot1 = v.slot1 ∧ (t.zone z).zoneTemp = v.zoneTemp
        ∧ (t.zone z).floorTemp = v.floorTemp
        ∧ t.mrs = (if r = .sensorLost ∧ v.reg ≠ .sensorLost then addEvent (.sensorLost z v.reg) s
            else if v.reg = .sensorLost ∧ r ≠ .sensorLost then
              addEvent (.sensorBack z (if IsFresh c.sensorTimeout v.slot0 then 0 else 1)) s
            else s).mrs
        ∧ (∀ y, y ≠ z → t.zone y = s.zone y)
        ∧ ThenValves [.regulation, .valveTargets, .events] (TargetsDerived (fun y => y = z)) s t
        ∧ Keeps ([.regulation, .valveTargets, .events] ++ issueFields) s t)
    ∧ (v.periodTimer = none → exec (.regulationEvent z) s = .next s)

/-- O50. The new state of a regulation event: without a fresh slot a zone is SENSOR_LOST, or STARTING while
the run-entry age is below the timeout (R62); a window drop from NORMAL opens the hold, which lasts while
the window timer runs (R64); otherwise the floor step decides between FLOOR_HOLD and NORMAL (R63, R65). A
slot is fresh while it is valid and its age is below the sensor timeout (R16). A DISABLED zone stays so (R61). -/
def Obligations.RegulationStates : Prop :=
  ∀ (c : ZoneCfg) (age : Nat) (v : ZoneRt),
    (v.reg = .disabled → newRegState c age v = .disabled)
    ∧ (v.reg ≠ .disabled → workingTemp c v = none → newRegState c age v
      = (if v.reg = .starting ∧ age < c.sensorTimeout then .starting else .sensorLost))
    ∧ (v.reg ≠ .disabled → ∀ temp, workingTemp c v = some temp →
      let dropped := v.reg = .normal ∧ c.windowDetection = true
        ∧ v.prevTemp.any (fun p => decide (c.windowDrop ≤ p - temp)) = true
      let holding := v.reg = .windowOpen ∧ v.windowTimer.isSome = true
      (dropped ∨ holding → newRegState c age v = .windowOpen)
        ∧ (¬dropped → ¬holding →
          ((c.floorLimit = none ∨ v.floorTemp = none) → newRegState c age v = .normal)
          ∧ ∀ l, c.floorLimit = some l → ∀ f, v.floorTemp = some f →
            newRegState c age v
              = (if (v.reg = .floorHold ∧ l - 16 < f) ∨ (v.reg ≠ .floorHold ∧ l ≤ f) then .floorHold
                else .normal)))

/-- O51. At an event whose new state is SENSOR_LOST, D is the blind demand when the active setpoint is above
the zone's minimum limit and 0 when it equals it, and I keeps its value (R75). By the model's choice the event is
taken at any value of the period timer (log 1). -/
def Obligations.BlindDemandWhenSensorLost : Prop :=
  ∀ (z : ZoneIx) (s : State), (s.zone z).periodTimer.isSome = true →
    newRegState (s.zoneCfg z) s.runEntryAge (s.zone z) = .sensorLost →
    ∃ t, exec (.regulationEvent z) s = .next t
      ∧ ((s.zoneCfg z).minLimit < (s.zone z).setpoint →
          (t.zone z).demand = (s.zoneCfg z).blindDemand)
      ∧ ((s.zone z).setpoint = (s.zoneCfg z).minLimit → (t.zone z).demand = 0)
      ∧ (t.zone z).integral = (s.zone z).integral

/-- O52. MOTION_TIMEOUT of a MOVING actuator whose timer runs frees the slot, makes the last commanded target
UNKNOWN, records NO_COMPLETION and raises VALVE_FAULT (R91, R95); the slot is free for the next issue, and
nothing else of the actuators, the Drive Queue and OQ-P changes but by R87. By the model's choice it acts at any
value of the timer (log 1). With no timer running nothing happens. -/
def Obligations.MotionTimeout : Prop :=
  ∀ (i : NodeIx) (s : State),
    let a := (s.node i).act
    let stopped : Actuator := { a with
      motion := .idle, lastCmd := none, pending := none, timer := none
      fault := some .noCompletion, lastIssue := none }
    (a.motion = .moving → a.timer.isSome = true →
      ∃ t, exec (.motionTimeout i) s = .next t
        ∧ (i ∉ s.driveQueue.map DriveEntry.node → (t.node i).act = stopped)
        ∧ ThenValves [.events] (ActThenIssued i stopped s.driveQueue) s t
        ∧ t.mrs = (addEvent (.valveFault (s.nodeCfg i).address .noCompletion) s).mrs
        ∧ Keeps (issueFields ++ [.events]) s t)
    ∧ (a.motion ≠ .moving ∨ a.timer = none → exec (.motionTimeout i) s = .next s)

/-- O53. DEMAND_PERIOD_EXPIRY: the timer is re-armed (R101), the flow path and the open demand are found as R103
has them, the burner is started or stopped by R107 and R108, the pump decided by R110, the targets of
overrun-path zones' actuators derived when PUMP_OVERRUN is entered or left (R83, R112), then (log 13) a
BOILER_DEMAND with the flow target of R105 placed while PLANT is UP (R113, R114), and MISSED charged while it is
not (R127), with PLANT_FAULT when that makes the plant state FAULT (R131). An overrun time of 0 starts no
overrun timer (R111, log 15). By the model's choice it acts at any value of the demand period timer (log 1). -/
def Obligations.DemandPeriodExpiry : Prop :=
  ∀ s : State,
    (s.pco.demandTimer.isSome = true →
      let start := s.pco.burnerTimer = 0 ∧ s.pls.plantState = .ok ∧ flowPath s = true
        ∧ s.work.plant.fireOn ≤ openDemand s
      let stop := s.pls.plantState ≠ .ok ∨ flowPath s = false
        ∨ (openDemand s < s.work.plant.fireOff ∧ s.pco.burnerTimer = 0)
      ∃ t, exec .demandPeriodExpiry s = .next t
        ∧ t.pco.demandTimer = some s.work.plant.demandPeriod
        ∧ t.pco.flowPathOpen = flowPath s ∧ t.pco.openDemand = openDemand s
        ∧ PathFound s (flowPath s) (openDemand s)
        ∧ (anyDemand s = true ↔ ∃ z : ZoneIx, (s.zoneCfg z).enabled = true ∧ 0 < (s.zone z).demand)
        ∧ FlowFor s.work.plant (openDemand s) (flowTarget s.work.plant (openDemand s))
        ∧ ExpiryOrdered s t
        ∧ (s.pco.burnerOn = false → start →
            t.pco.burnerOn = true ∧ t.pco.burnerTimer = s.work.plant.minOn
              ∧ t.pco.overrunTimer = s.pco.overrunTimer)
        ∧ (s.pco.burnerOn = true → stop →
            t.pco.burnerOn = false ∧ t.pco.burnerTimer = s.work.plant.minOff
              ∧ t.pco.overrunTimer = (if s.work.plant.overrunTime = 0 then none
                else some s.work.plant.overrunTime))
        ∧ ((s.pco.burnerOn = false ∧ ¬start) ∨ (s.pco.burnerOn = true ∧ ¬stop) →
            t.pco.burnerOn = s.pco.burnerOn ∧ t.pco.burnerTimer = s.pco.burnerTimer
              ∧ t.pco.overrunTimer = s.pco.overrunTimer)
        ∧ t.pco.pump = (if t.pco.burnerOn = true ∨ (anyDemand s = true ∧ flowPath s = true) then .on
            else if t.pco.overrunTimer.isSome = true then .overrun else .off)
        ∧ (∀ i, findBoiler s = some i → s.plant.health = .up →
            let flow := if t.pco.burnerOn = true then flowTarget s.work.plant (openDemand s) else 0
            t.pco.lastFlow = flow
              ∧ (s.plant.own.any (fun g => g.msg.isDemand) = true
                  ∨ (s.plant.own.length < 8 ∧ (s.pco.pump = .overrun ↔ t.pco.pump = .overrun)) →
                (⟨(s.nodeCfg i).address, s.ownAddress,
                  .boilerDemand flow t.pco.burnerOn (decide (t.pco.pump ≠ .off)) s.pls.question⟩
                  : OwnFrame) ∈ t.plant.own))
        ∧ (s.plant.health ≠ .up → s.pls.plantState ≠ .noBoiler →
            ChargedFrom s.work.plant.faultThreshold s.pls t.pls
              ∧ t.pco.plantAvailable = plantAvailableOf t.pls
              ∧ t.mrs = (if s.pls.plantState = .ok ∧ t.pls.plantState = .fault then
                  addEvent (.plantFault .missed) s else s).mrs)
        ∧ (s.plant.health = .up ∨ s.pls.plantState = .noBoiler →
            t.pls = s.pls ∧ t.mrs = s.mrs ∧ t.pco.plantAvailable = s.pco.plantAvailable)
        ∧ Keeps ([.pco, .pls, .events] ++ issueFields) s t)
    ∧ (s.pco.demandTimer = none → exec .demandPeriodExpiry s = .next s)

/-- O54. OVERRUN_END makes the overrun timer absent; in PUMP_OVERRUN the pump state is decided again at once,
which leaves it, and the Valve Drive Scheduler derives new targets for the actuators of every overrun-path
zone, places them and issues as R87 allows (R83, R85, R111, R112). By the model's choice it acts at any value
of the timer (log 1). With no timer running it does nothing. -/
def Obligations.OverrunEnd : Prop :=
  ∀ s : State,
    (s.pco.overrunTimer.isSome = true → ∃ t, exec .overrunEnd s = .next t
      ∧ t.pco = { s.pco with
        overrunTimer := none
        pump := if s.pco.pump = .overrun then
            (if s.pco.burnerOn = true ∨ (anyDemand s = true ∧ s.pco.flowPathOpen = true) then .on
              else .off)
          else s.pco.pump }
      ∧ (anyDemand s = true ↔ ∃ z : ZoneIx, (s.zoneCfg z).enabled = true ∧ 0 < (s.zone z).demand)
      ∧ (s.pco.pump = .overrun →
          ThenValves [.pco] (TargetsDerived (fun z => (s.zoneCfg z).overrunPath = true)) s t)
      ∧ (s.pco.pump ≠ .overrun → Keeps [.pco] s t)
      ∧ Keeps ([.pco] ++ issueFields) s t)
    ∧ (s.pco.overrunTimer = none → exec .overrunEnd s = .next s)

/-- O55. ROLL_CALL_EXPIRY re-arms the interval timer; with the roll phase IDLE, a group to call and room in
the own-frame queue it places the ROLL_CALL of the next group and clears the seen flags of that group
(R161). ROLL_WINDOW_CLOSE charges a miss to every node of the called group not seen, but for ABSENT ones
and those in MISMATCH of cause SEGMENT, makes ABSENT at the third with NODE_ABSENT, in rising index order (log 19),
and ends the roll call (R164). An actuator made ABSENT leaves the Drive Queue and loses its fields but for its
fault, and a slot it held is free for the next issue (R96, R87). The next group is the first from the pointer
onward, cyclically, with a used entry of the segment. By the model's choice the expiry acts at any value of the
interval timer, and the close at any time while the window is open (log 1). -/
def Obligations.RollCallAndItsWindow : Prop :=
  ∀ (x : Segment) (s : State),
    (∃ t, exec (.rollCallExpiry x) s = .next t
      ∧ (∀ g, GroupNext s x g → (s.seg x).roll.phase = .idle →
          (s.seg x).health ≠ .noSupply → (s.seg x).own.length < 8 →
          (t.seg x).roll = ⟨g + 1, s.work.system.rollInterval, .calling, some g⟩
            ∧ (t.seg x).own = (s.seg x).own ++ [⟨0x00#8, s.ownAddress, .rollCall g⟩]
            ∧ (∀ i : NodeIx, t.node i = (if GroupHolds s x g i then
                { s.node i with seen := false } else s.node i)))
      ∧ ((∀ g i, ¬GroupHolds s x g i) ∨ (s.seg x).roll.phase ≠ .idle
            ∨ (s.seg x).health = .noSupply ∨ 8 ≤ (s.seg x).own.length →
          (t.seg x).roll = { (s.seg x).roll with interval := s.work.system.rollInterval }
            ∧ Keeps [.roll x] s t)
      ∧ Keeps [.roll x, .own x, .presence] s t)
    ∧ (∀ g, (s.seg x).roll.group = some g → (s.seg x).roll.phase = .window →
      ∃ t, exec (.rollWindowClose x) s = .next t
        ∧ (t.seg x).roll = { (s.seg x).roll with phase := .idle, group := none }
        ∧ (∃ u, Along (NodeClosed x g) (List.finRange 48) s u ∧ Keeps [.roll x] u t)
        ∧ (∀ i : NodeIx,
          let charged := GroupHolds s x g i ∧ (s.node i).seen = false
            ∧ (s.node i).presence ≠ .absent ∧ (s.node i).presence ≠ .mismatch .segment
          (t.node i).presencePart
            = (if charged then
                (if 3 ≤ (s.node i).missCount + 1 then ⟨.absent, 3, false⟩
                  else ⟨(s.node i).presence, (s.node i).missCount + 1, false⟩)
              else (s.node i).presencePart))
        ∧ t.mrs = (allNodes.foldl (fun u i =>
            if GroupHolds s x g i ∧ (s.node i).seen = false ∧ 2 ≤ (s.node i).missCount
                ∧ (s.node i).presence ≠ .absent ∧ (s.node i).presence ≠ .mismatch .segment then
              addEvent (.nodeAbsent (s.nodeCfg i).address (s.node i).presence) u
            else u) s).mrs
        ∧ Keeps ([.roll x, .presence, .events] ++ issueFields) s t)
    ∧ ((s.seg x).roll.phase ≠ .window → exec (.rollWindowClose x) s = .next s)

/-- O56. COLD_RESET (R176): the tables are read back from the store, with the entry of a commit it fell into
when that had landed (R172, log 5), the mode decided, every field at its reset value (R9, R80, R100, R119, R134,
R158, R160, R167), the clock invalid, no holiday and no override, and every zone at its default (R10). The Event
Queue holds CONFIG_INVALID and nothing else, or is empty (R176, R180). In RUN the actuators of disabled zones
have been given their targets, and commands issued (R83, R98, log 18). The queue of commands stays (log 26). -/
def Obligations.ColdReset : Prop :=
  ∀ (roomSupply plantSupply landed : Bool) (s : State),
    ∃ t, exec (.coldReset roomSupply plantSupply landed) s = .next t
      ∧ ResetDone (supplyLines roomSupply plantSupply) (fun _ => none) t
      ∧ t.clock = ⟨0, false⟩ ∧ t.holiday = ⟨false, 0, 0⟩
      ∧ (∀ z : ZoneIx,
          let c := t.store.zones[z]
          let lo := if c.enabled = true then t.store.levels[c.defaultLevel] else c.minLimit
          (t.zone z).resolverPart
            = ⟨if lo < c.minLimit then c.minLimit else if c.maxLimit < lo then c.maxLimit else lo,
              .default, none, none, none⟩)
      ∧ t.mrs.events = (if t.storedMode = .run then
          (checkFailures t.store).head?.toList.map (fun f => ⟨.configInvalid f, none⟩) else [])
      ∧ t.mrs.attn = !t.mrs.events.isEmpty ∧ t.mrs.eventOverflow = false
      ∧ ((committing s = none ∨ landed = false) →
          t.store = s.store ∧ t.storedMode = s.storedMode)
      ∧ (∀ item, committing s = some item → landed = true →
          Tables.sameAt item t.store s.work ∧ Tables.sameBut item s.store t.store
            ∧ t.storedMode = (if item = .mode then s.mode else s.storedMode))
      ∧ t.pending = s.pending

/-- O57. The warm reset (R177) leaves what a cold one does, but keeps the clock, the holiday and the overrides,
an UNTIL_NEXT one as the new resolution lets it, and resolves every zone, with SCHEDULE_FAULT for a fault (R9,
R10, R48, log 18); the store stays, and the queue of commands (log 26). It takes effect as the outstanding reply
ends: when the transmission of the DONE reply completes, when the reply is abandoned, its segment's line
then being low (log 16), or at once when its queue refuses it; and, as the model's own choice, at a
WARM_RESET_EFFECT while it is pending, the reply outstanding or not (log 28). A line of a segment that is UP or
STUCK is high, and that of a NO_SUPPLY segment a free value (log 6). With none pending WARM_RESET_EFFECT does
nothing. -/
def Obligations.WarmResetEffect : Prop :=
  ∀ s : State,
    (∀ x : Segment, (s.seg x).health ≠ .noSupply → supplyNow s x = true)
    ∧ (s.mrs.warmResetPending = true →
      ∃ t, exec .warmResetEffect s = .next t ∧ WarmResetDone (supplyNow s) s t)
    ∧ (s.mrs.warmResetPending = false → exec .warmResetEffect s = .next s)
    ∧ (s.mrs.warmResetPending = true → ∀ x : Segment, (s.seg x).health = .up →
      ∀ k, (s.seg x).tx = some k → k.held = false → ∀ f, k.frame = .own f →
      (∃ tag op result data, f.msg = .mgmtReply tag op result data) →
      ∃ t, exec (.transmissionComplete x) s = .next t ∧ WarmResetDone (supplyNow s) s t)
    ∧ (s.mrs.warmResetPending = true → ∀ x : Segment, (s.seg x).health ≠ .noSupply → ReplyHeld s x →
      ∃ t, exec (.segmentNoSupply x) s = .next t
        ∧ WarmResetDone (fun y => if y = x then false else supplyNow s y) s t)
    ∧ ∀ q : MgmtRequest, Executed q 0x0D#8 s → q.data = [] →
      let h := requestState q 0x0D#8 s
      ownRoom h q.seg = false →
      ∃ t, exec (.warmReset q) s = .next t ∧ WarmResetDone (supplyNow h) h t

/-! ### Rules of their own -/

/-- O58. R84: a derived target is worth sending while the last commanded target is UNKNOWN, when it is 0 or
100 and differs at all, or when it differs by the deadband or more, and not otherwise; and so is a pending target
against the position reached. -/
def Obligations.TargetWorthSending : Prop :=
  (∀ deadband reached target : Nat, worthAgainst deadband reached target = true ↔
    ((target = 0 ∨ target = 100) ∧ target ≠ reached) ∨ deadband ≤ ((target : Int) - reached).natAbs)
  ∧ ∀ (s : State) (i : NodeIx) (target : Nat),
    worthSending s.work.plant.deadband (s.node i).act.lastCmd target = true ↔
      (s.node i).act.lastCmd = none
        ∨ ∃ last, (s.node i).act.lastCmd = some last
          ∧ (((target = 0 ∨ target = 100) ∧ target ≠ last)
            ∨ s.work.plant.deadband ≤ ((target : Int) - last).natAbs)

/-- O59. R122: the expected answer is the question, exclusive-or the window's flow target modulo 256,
exclusive-or 0x80 when its release is set. -/
def Obligations.ExpectedAnswer : Prop :=
  ∀ (s : State) (w : Window),
    (expectedAnswer s.pls.question w.flow w.release).toNat
        = (s.pls.question.toNat ^^^ (w.flow % 256).toNat) ^^^ (if w.release = true then 0x80 else 0)
      ∧ (w.flow = 0 → w.release = false →
          expectedAnswer s.pls.question w.flow w.release = s.pls.question)

/-- O60. R121: a step doubles the register modulo 256 and adds the exclusive-or of its tap bits, 7, 5, 4, 3
for POLY_A and 7, 3, 2, 1 for POLY_B; 0x80 steps to 0x01; and from any value but 0x00 either tap set runs
through 255 different values, none of them 0x00, before the first returns. -/
def Obligations.QuestionRegisterSteps : Prop :=
  ∀ (p : Polynomial) (q : Byte),
    (stepQuestion p q).toNat = (2 * q.toNat) % 256
        + (if feedback p q = true then 1 else 0)
      ∧ feedback p q = (match p with
        | .polyA => Bool.xor (Bool.xor (Bool.xor (q.getLsbD 7) (q.getLsbD 5)) (q.getLsbD 4)) (q.getLsbD 3)
        | .polyB => Bool.xor (Bool.xor (Bool.xor (q.getLsbD 7) (q.getLsbD 3)) (q.getLsbD 2)) (q.getLsbD 1))
      ∧ stepQuestion p 0x80#8 = 0x01#8
      ∧ (q ≠ 0#8 →
          (∀ n : Fin 255, Nat.repeat (stepQuestion p) n.val q ≠ 0#8
            ∧ (0 < n.val → Nat.repeat (stepQuestion p) n.val q ≠ q))
          ∧ Nat.repeat (stepQuestion p) 255 q = q)
end

