-- ==== Sys2Proof/Laws/State.lean ====
section
/-! SUPPORT. One lemma per field per named update of the state, and per accessor. -/

namespace Sys2Proof.Machine

open Sys2Proof

section Updates

variable (s : State)

/-! `State.setZone`. -/

@[simp] theorem State.setZone_work (z : ZoneIx) (v : ZoneRt) : (s.setZone z v).work = s.work := rfl
@[simp] theorem State.setZone_store (z : ZoneIx) (v : ZoneRt) : (s.setZone z v).store = s.store := rfl
@[simp] theorem State.setZone_storedMode (z : ZoneIx) (v : ZoneRt) : (s.setZone z v).storedMode = s.storedMode := rfl
@[simp] theorem State.setZone_mode (z : ZoneIx) (v : ZoneRt) : (s.setZone z v).mode = s.mode := rfl
@[simp] theorem State.setZone_nodes (z : ZoneIx) (v : ZoneRt) : (s.setZone z v).nodes = s.nodes := rfl
@[simp] theorem State.setZone_clock (z : ZoneIx) (v : ZoneRt) : (s.setZone z v).clock = s.clock := rfl
@[simp] theorem State.setZone_holiday (z : ZoneIx) (v : ZoneRt) : (s.setZone z v).holiday = s.holiday := rfl
@[simp] theorem State.setZone_runEntryAge (z : ZoneIx) (v : ZoneRt) : (s.setZone z v).runEntryAge = s.runEntryAge := rfl
@[simp] theorem State.setZone_room (z : ZoneIx) (v : ZoneRt) : (s.setZone z v).room = s.room := rfl
@[simp] theorem State.setZone_plant (z : ZoneIx) (v : ZoneRt) : (s.setZone z v).plant = s.plant := rfl
@[simp] theorem State.setZone_newcomers (z : ZoneIx) (v : ZoneRt) : (s.setZone z v).newcomers = s.newcomers := rfl
@[simp] theorem State.setZone_newcomerOverflow (z : ZoneIx) (v : ZoneRt) : (s.setZone z v).newcomerOverflow = s.newcomerOverflow := rfl
@[simp] theorem State.setZone_driveQueue (z : ZoneIx) (v : ZoneRt) : (s.setZone z v).driveQueue = s.driveQueue := rfl
@[simp] theorem State.setZone_nextIssue (z : ZoneIx) (v : ZoneRt) : (s.setZone z v).nextIssue = s.nextIssue := rfl
@[simp] theorem State.setZone_pco (z : ZoneIx) (v : ZoneRt) : (s.setZone z v).pco = s.pco := rfl
@[simp] theorem State.setZone_pls (z : ZoneIx) (v : ZoneRt) : (s.setZone z v).pls = s.pls := rfl
@[simp] theorem State.setZone_mrs (z : ZoneIx) (v : ZoneRt) : (s.setZone z v).mrs = s.mrs := rfl
@[simp] theorem State.setZone_freeCount (z : ZoneIx) (v : ZoneRt) : (s.setZone z v).freeCount = s.freeCount := rfl
@[simp] theorem State.setZone_pending (z : ZoneIx) (v : ZoneRt) : (s.setZone z v).pending = s.pending := rfl

/-! `State.setNode`. -/

@[simp] theorem State.setNode_work (i : NodeIx) (v : NodeRt) : (s.setNode i v).work = s.work := rfl
@[simp] theorem State.setNode_store (i : NodeIx) (v : NodeRt) : (s.setNode i v).store = s.store := rfl
@[simp] theorem State.setNode_storedMode (i : NodeIx) (v : NodeRt) : (s.setNode i v).storedMode = s.storedMode := rfl
@[simp] theorem State.setNode_mode (i : NodeIx) (v : NodeRt) : (s.setNode i v).mode = s.mode := rfl
@[simp] theorem State.setNode_zones (i : NodeIx) (v : NodeRt) : (s.setNode i v).zones = s.zones := rfl
@[simp] theorem State.setNode_clock (i : NodeIx) (v : NodeRt) : (s.setNode i v).clock = s.clock := rfl
@[simp] theorem State.setNode_holiday (i : NodeIx) (v : NodeRt) : (s.setNode i v).holiday = s.holiday := rfl
@[simp] theorem State.setNode_runEntryAge (i : NodeIx) (v : NodeRt) : (s.setNode i v).runEntryAge = s.runEntryAge := rfl
@[simp] theorem State.setNode_room (i : NodeIx) (v : NodeRt) : (s.setNode i v).room = s.room := rfl
@[simp] theorem State.setNode_plant (i : NodeIx) (v : NodeRt) : (s.setNode i v).plant = s.plant := rfl
@[simp] theorem State.setNode_newcomers (i : NodeIx) (v : NodeRt) : (s.setNode i v).newcomers = s.newcomers := rfl
@[simp] theorem State.setNode_newcomerOverflow (i : NodeIx) (v : NodeRt) : (s.setNode i v).newcomerOverflow = s.newcomerOverflow := rfl
@[simp] theorem State.setNode_driveQueue (i : NodeIx) (v : NodeRt) : (s.setNode i v).driveQueue = s.driveQueue := rfl
@[simp] theorem State.setNode_nextIssue (i : NodeIx) (v : NodeRt) : (s.setNode i v).nextIssue = s.nextIssue := rfl
@[simp] theorem State.setNode_pco (i : NodeIx) (v : NodeRt) : (s.setNode i v).pco = s.pco := rfl
@[simp] theorem State.setNode_pls (i : NodeIx) (v : NodeRt) : (s.setNode i v).pls = s.pls := rfl
@[simp] theorem State.setNode_mrs (i : NodeIx) (v : NodeRt) : (s.setNode i v).mrs = s.mrs := rfl
@[simp] theorem State.setNode_freeCount (i : NodeIx) (v : NodeRt) : (s.setNode i v).freeCount = s.freeCount := rfl
@[simp] theorem State.setNode_pending (i : NodeIx) (v : NodeRt) : (s.setNode i v).pending = s.pending := rfl

/-! `State.setAct`. -/

@[simp] theorem State.setAct_work (i : NodeIx) (a : Actuator) : (s.setAct i a).work = s.work := rfl
@[simp] theorem State.setAct_store (i : NodeIx) (a : Actuator) : (s.setAct i a).store = s.store := rfl
@[simp] theorem State.setAct_storedMode (i : NodeIx) (a : Actuator) : (s.setAct i a).storedMode = s.storedMode := rfl
@[simp] theorem State.setAct_mode (i : NodeIx) (a : Actuator) : (s.setAct i a).mode = s.mode := rfl
@[simp] theorem State.setAct_zones (i : NodeIx) (a : Actuator) : (s.setAct i a).zones = s.zones := rfl
@[simp] theorem State.setAct_clock (i : NodeIx) (a : Actuator) : (s.setAct i a).clock = s.clock := rfl
@[simp] theorem State.setAct_holiday (i : NodeIx) (a : Actuator) : (s.setAct i a).holiday = s.holiday := rfl
@[simp] theorem State.setAct_runEntryAge (i : NodeIx) (a : Actuator) : (s.setAct i a).runEntryAge = s.runEntryAge := rfl
@[simp] theorem State.setAct_room (i : NodeIx) (a : Actuator) : (s.setAct i a).room = s.room := rfl
@[simp] theorem State.setAct_plant (i : NodeIx) (a : Actuator) : (s.setAct i a).plant = s.plant := rfl
@[simp] theorem State.setAct_newcomers (i : NodeIx) (a : Actuator) : (s.setAct i a).newcomers = s.newcomers := rfl
@[simp] theorem State.setAct_newcomerOverflow (i : NodeIx) (a : Actuator) : (s.setAct i a).newcomerOverflow = s.newcomerOverflow := rfl
@[simp] theorem State.setAct_driveQueue (i : NodeIx) (a : Actuator) : (s.setAct i a).driveQueue = s.driveQueue := rfl
@[simp] theorem State.setAct_nextIssue (i : NodeIx) (a : Actuator) : (s.setAct i a).nextIssue = s.nextIssue := rfl
@[simp] theorem State.setAct_pco (i : NodeIx) (a : Actuator) : (s.setAct i a).pco = s.pco := rfl
@[simp] theorem State.setAct_pls (i : NodeIx) (a : Actuator) : (s.setAct i a).pls = s.pls := rfl
@[simp] theorem State.setAct_mrs (i : NodeIx) (a : Actuator) : (s.setAct i a).mrs = s.mrs := rfl
@[simp] theorem State.setAct_freeCount (i : NodeIx) (a : Actuator) : (s.setAct i a).freeCount = s.freeCount := rfl
@[simp] theorem State.setAct_pending (i : NodeIx) (a : Actuator) : (s.setAct i a).pending = s.pending := rfl

/-! `State.setDrive`. -/

@[simp] theorem State.setDrive_work (q : List DriveEntry) : (s.setDrive q).work = s.work := rfl
@[simp] theorem State.setDrive_store (q : List DriveEntry) : (s.setDrive q).store = s.store := rfl
@[simp] theorem State.setDrive_storedMode (q : List DriveEntry) : (s.setDrive q).storedMode = s.storedMode := rfl
@[simp] theorem State.setDrive_mode (q : List DriveEntry) : (s.setDrive q).mode = s.mode := rfl
@[simp] theorem State.setDrive_zones (q : List DriveEntry) : (s.setDrive q).zones = s.zones := rfl
@[simp] theorem State.setDrive_nodes (q : List DriveEntry) : (s.setDrive q).nodes = s.nodes := rfl
@[simp] theorem State.setDrive_clock (q : List DriveEntry) : (s.setDrive q).clock = s.clock := rfl
@[simp] theorem State.setDrive_holiday (q : List DriveEntry) : (s.setDrive q).holiday = s.holiday := rfl
@[simp] theorem State.setDrive_runEntryAge (q : List DriveEntry) : (s.setDrive q).runEntryAge = s.runEntryAge := rfl
@[simp] theorem State.setDrive_room (q : List DriveEntry) : (s.setDrive q).room = s.room := rfl
@[simp] theorem State.setDrive_plant (q : List DriveEntry) : (s.setDrive q).plant = s.plant := rfl
@[simp] theorem State.setDrive_newcomers (q : List DriveEntry) : (s.setDrive q).newcomers = s.newcomers := rfl
@[simp] theorem State.setDrive_newcomerOverflow (q : List DriveEntry) : (s.setDrive q).newcomerOverflow = s.newcomerOverflow := rfl
@[simp] theorem State.setDrive_driveQueue (q : List DriveEntry) : (s.setDrive q).driveQueue = q := rfl
@[simp] theorem State.setDrive_nextIssue (q : List DriveEntry) : (s.setDrive q).nextIssue = s.nextIssue := rfl
@[simp] theorem State.setDrive_pco (q : List DriveEntry) : (s.setDrive q).pco = s.pco := rfl
@[simp] theorem State.setDrive_pls (q : List DriveEntry) : (s.setDrive q).pls = s.pls := rfl
@[simp] theorem State.setDrive_mrs (q : List DriveEntry) : (s.setDrive q).mrs = s.mrs := rfl
@[simp] theorem State.setDrive_freeCount (q : List DriveEntry) : (s.setDrive q).freeCount = s.freeCount := rfl
@[simp] theorem State.setDrive_pending (q : List DriveEntry) : (s.setDrive q).pending = s.pending := rfl

/-! `State.setPco`. -/

@[simp] theorem State.setPco_work (p : Coordinator) : (s.setPco p).work = s.work := rfl
@[simp] theorem State.setPco_store (p : Coordinator) : (s.setPco p).store = s.store := rfl
@[simp] theorem State.setPco_storedMode (p : Coordinator) : (s.setPco p).storedMode = s.storedMode := rfl
@[simp] theorem State.setPco_mode (p : Coordinator) : (s.setPco p).mode = s.mode := rfl
@[simp] theorem State.setPco_zones (p : Coordinator) : (s.setPco p).zones = s.zones := rfl
@[simp] theorem State.setPco_nodes (p : Coordinator) : (s.setPco p).nodes = s.nodes := rfl
@[simp] theorem State.setPco_clock (p : Coordinator) : (s.setPco p).clock = s.clock := rfl
@[simp] theorem State.setPco_holiday (p : Coordinator) : (s.setPco p).holiday = s.holiday := rfl
@[simp] theorem State.setPco_runEntryAge (p : Coordinator) : (s.setPco p).runEntryAge = s.runEntryAge := rfl
@[simp] theorem State.setPco_room (p : Coordinator) : (s.setPco p).room = s.room := rfl
@[simp] theorem State.setPco_plant (p : Coordinator) : (s.setPco p).plant = s.plant := rfl
@[simp] theorem State.setPco_newcomers (p : Coordinator) : (s.setPco p).newcomers = s.newcomers := rfl
@[simp] theorem State.setPco_newcomerOverflow (p : Coordinator) : (s.setPco p).newcomerOverflow = s.newcomerOverflow := rfl
@[simp] theorem State.setPco_driveQueue (p : Coordinator) : (s.setPco p).driveQueue = s.driveQueue := rfl
@[simp] theorem State.setPco_nextIssue (p : Coordinator) : (s.setPco p).nextIssue = s.nextIssue := rfl
@[simp] theorem State.setPco_pco (p : Coordinator) : (s.setPco p).pco = p := rfl
@[simp] theorem State.setPco_pls (p : Coordinator) : (s.setPco p).pls = s.pls := rfl
@[simp] theorem State.setPco_mrs (p : Coordinator) : (s.setPco p).mrs = s.mrs := rfl
@[simp] theorem State.setPco_freeCount (p : Coordinator) : (s.setPco p).freeCount = s.freeCount := rfl
@[simp] theorem State.setPco_pending (p : Coordinator) : (s.setPco p).pending = s.pending := rfl

/-! `State.setPls`. -/

@[simp] theorem State.setPls_work (p : Supervisor) : (s.setPls p).work = s.work := rfl
@[simp] theorem State.setPls_store (p : Supervisor) : (s.setPls p).store = s.store := rfl
@[simp] theorem State.setPls_storedMode (p : Supervisor) : (s.setPls p).storedMode = s.storedMode := rfl
@[simp] theorem State.setPls_mode (p : Supervisor) : (s.setPls p).mode = s.mode := rfl
@[simp] theorem State.setPls_zones (p : Supervisor) : (s.setPls p).zones = s.zones := rfl
@[simp] theorem State.setPls_nodes (p : Supervisor) : (s.setPls p).nodes = s.nodes := rfl
@[simp] theorem State.setPls_clock (p : Supervisor) : (s.setPls p).clock = s.clock := rfl
@[simp] theorem State.setPls_holiday (p : Supervisor) : (s.setPls p).holiday = s.holiday := rfl
@[simp] theorem State.setPls_runEntryAge (p : Supervisor) : (s.setPls p).runEntryAge = s.runEntryAge := rfl
@[simp] theorem State.setPls_room (p : Supervisor) : (s.setPls p).room = s.room := rfl
@[simp] theorem State.setPls_plant (p : Supervisor) : (s.setPls p).plant = s.plant := rfl
@[simp] theorem State.setPls_newcomers (p : Supervisor) : (s.setPls p).newcomers = s.newcomers := rfl
@[simp] theorem State.setPls_newcomerOverflow (p : Supervisor) : (s.setPls p).newcomerOverflow = s.newcomerOverflow := rfl
@[simp] theorem State.setPls_driveQueue (p : Supervisor) : (s.setPls p).driveQueue = s.driveQueue := rfl
@[simp] theorem State.setPls_nextIssue (p : Supervisor) : (s.setPls p).nextIssue = s.nextIssue := rfl
@[simp] theorem State.setPls_pco (p : Supervisor) : (s.setPls p).pco = s.pco := rfl
@[simp] theorem State.setPls_pls (p : Supervisor) : (s.setPls p).pls = p := rfl
@[simp] theorem State.setPls_mrs (p : Supervisor) : (s.setPls p).mrs = s.mrs := rfl
@[simp] theorem State.setPls_freeCount (p : Supervisor) : (s.setPls p).freeCount = s.freeCount := rfl
@[simp] theorem State.setPls_pending (p : Supervisor) : (s.setPls p).pending = s.pending := rfl

/-! `State.setMrs`. -/

@[simp] theorem State.setMrs_work (m : Responder) : (s.setMrs m).work = s.work := rfl
@[simp] theorem State.setMrs_store (m : Responder) : (s.setMrs m).store = s.store := rfl
@[simp] theorem State.setMrs_storedMode (m : Responder) : (s.setMrs m).storedMode = s.storedMode := rfl
@[simp] theorem State.setMrs_mode (m : Responder) : (s.setMrs m).mode = s.mode := rfl
@[simp] theorem State.setMrs_zones (m : Responder) : (s.setMrs m).zones = s.zones := rfl
@[simp] theorem State.setMrs_nodes (m : Responder) : (s.setMrs m).nodes = s.nodes := rfl
@[simp] theorem State.setMrs_clock (m : Responder) : (s.setMrs m).clock = s.clock := rfl
@[simp] theorem State.setMrs_holiday (m : Responder) : (s.setMrs m).holiday = s.holiday := rfl
@[simp] theorem State.setMrs_runEntryAge (m : Responder) : (s.setMrs m).runEntryAge = s.runEntryAge := rfl
@[simp] theorem State.setMrs_room (m : Responder) : (s.setMrs m).room = s.room := rfl
@[simp] theorem State.setMrs_plant (m : Responder) : (s.setMrs m).plant = s.plant := rfl
@[simp] theorem State.setMrs_newcomers (m : Responder) : (s.setMrs m).newcomers = s.newcomers := rfl
@[simp] theorem State.setMrs_newcomerOverflow (m : Responder) : (s.setMrs m).newcomerOverflow = s.newcomerOverflow := rfl
@[simp] theorem State.setMrs_driveQueue (m : Responder) : (s.setMrs m).driveQueue = s.driveQueue := rfl
@[simp] theorem State.setMrs_nextIssue (m : Responder) : (s.setMrs m).nextIssue = s.nextIssue := rfl
@[simp] theorem State.setMrs_pco (m : Responder) : (s.setMrs m).pco = s.pco := rfl
@[simp] theorem State.setMrs_pls (m : Responder) : (s.setMrs m).pls = s.pls := rfl
@[simp] theorem State.setMrs_mrs (m : Responder) : (s.setMrs m).mrs = m := rfl
@[simp] theorem State.setMrs_freeCount (m : Responder) : (s.setMrs m).freeCount = s.freeCount := rfl
@[simp] theorem State.setMrs_pending (m : Responder) : (s.setMrs m).pending = s.pending := rfl

/-! `State.setWork`. -/

@[simp] theorem State.setWork_work (t : Tables) : (s.setWork t).work = t := rfl
@[simp] theorem State.setWork_store (t : Tables) : (s.setWork t).store = s.store := rfl
@[simp] theorem State.setWork_storedMode (t : Tables) : (s.setWork t).storedMode = s.storedMode := rfl
@[simp] theorem State.setWork_mode (t : Tables) : (s.setWork t).mode = s.mode := rfl
@[simp] theorem State.setWork_zones (t : Tables) : (s.setWork t).zones = s.zones := rfl
@[simp] theorem State.setWork_nodes (t : Tables) : (s.setWork t).nodes = s.nodes := rfl
@[simp] theorem State.setWork_clock (t : Tables) : (s.setWork t).clock = s.clock := rfl
@[simp] theorem State.setWork_holiday (t : Tables) : (s.setWork t).holiday = s.holiday := rfl
@[simp] theorem State.setWork_runEntryAge (t : Tables) : (s.setWork t).runEntryAge = s.runEntryAge := rfl
@[simp] theorem State.setWork_room (t : Tables) : (s.setWork t).room = s.room := rfl
@[simp] theorem State.setWork_plant (t : Tables) : (s.setWork t).plant = s.plant := rfl
@[simp] theorem State.setWork_newcomers (t : Tables) : (s.setWork t).newcomers = s.newcomers := rfl
@[simp] theorem State.setWork_newcomerOverflow (t : Tables) : (s.setWork t).newcomerOverflow = s.newcomerOverflow := rfl
@[simp] theorem State.setWork_driveQueue (t : Tables) : (s.setWork t).driveQueue = s.driveQueue := rfl
@[simp] theorem State.setWork_nextIssue (t : Tables) : (s.setWork t).nextIssue = s.nextIssue := rfl
@[simp] theorem State.setWork_pco (t : Tables) : (s.setWork t).pco = s.pco := rfl
@[simp] theorem State.setWork_pls (t : Tables) : (s.setWork t).pls = s.pls := rfl
@[simp] theorem State.setWork_mrs (t : Tables) : (s.setWork t).mrs = s.mrs := rfl
@[simp] theorem State.setWork_freeCount (t : Tables) : (s.setWork t).freeCount = s.freeCount := rfl
@[simp] theorem State.setWork_pending (t : Tables) : (s.setWork t).pending = s.pending := rfl

/-! `State.setClock`. -/

@[simp] theorem State.setClock_work (c : Clock) : (s.setClock c).work = s.work := rfl
@[simp] theorem State.setClock_store (c : Clock) : (s.setClock c).store = s.store := rfl
@[simp] theorem State.setClock_storedMode (c : Clock) : (s.setClock c).storedMode = s.storedMode := rfl
@[simp] theorem State.setClock_mode (c : Clock) : (s.setClock c).mode = s.mode := rfl
@[simp] theorem State.setClock_zones (c : Clock) : (s.setClock c).zones = s.zones := rfl
@[simp] theorem State.setClock_nodes (c : Clock) : (s.setClock c).nodes = s.nodes := rfl
@[simp] theorem State.setClock_clock (c : Clock) : (s.setClock c).clock = c := rfl
@[simp] theorem State.setClock_holiday (c : Clock) : (s.setClock c).holiday = s.holiday := rfl
@[simp] theorem State.setClock_runEntryAge (c : Clock) : (s.setClock c).runEntryAge = s.runEntryAge := rfl
@[simp] theorem State.setClock_room (c : Clock) : (s.setClock c).room = s.room := rfl
@[simp] theorem State.setClock_plant (c : Clock) : (s.setClock c).plant = s.plant := rfl
@[simp] theorem State.setClock_newcomers (c : Clock) : (s.setClock c).newcomers = s.newcomers := rfl
@[simp] theorem State.setClock_newcomerOverflow (c : Clock) : (s.setClock c).newcomerOverflow = s.newcomerOverflow := rfl
@[simp] theorem State.setClock_driveQueue (c : Clock) : (s.setClock c).driveQueue = s.driveQueue := rfl
@[simp] theorem State.setClock_nextIssue (c : Clock) : (s.setClock c).nextIssue = s.nextIssue := rfl
@[simp] theorem State.setClock_pco (c : Clock) : (s.setClock c).pco = s.pco := rfl
@[simp] theorem State.setClock_pls (c : Clock) : (s.setClock c).pls = s.pls := rfl
@[simp] theorem State.setClock_mrs (c : Clock) : (s.setClock c).mrs = s.mrs := rfl
@[simp] theorem State.setClock_freeCount (c : Clock) : (s.setClock c).freeCount = s.freeCount := rfl
@[simp] theorem State.setClock_pending (c : Clock) : (s.setClock c).pending = s.pending := rfl

/-! `State.setHoliday`. -/

@[simp] theorem State.setHoliday_work (h : Holiday) : (s.setHoliday h).work = s.work := rfl
@[simp] theorem State.setHoliday_store (h : Holiday) : (s.setHoliday h).store = s.store := rfl
@[simp] theorem State.setHoliday_storedMode (h : Holiday) : (s.setHoliday h).storedMode = s.storedMode := rfl
@[simp] theorem State.setHoliday_mode (h : Holiday) : (s.setHoliday h).mode = s.mode := rfl
@[simp] theorem State.setHoliday_zones (h : Holiday) : (s.setHoliday h).zones = s.zones := rfl
@[simp] theorem State.setHoliday_nodes (h : Holiday) : (s.setHoliday h).nodes = s.nodes := rfl
@[simp] theorem State.setHoliday_clock (h : Holiday) : (s.setHoliday h).clock = s.clock := rfl
@[simp] theorem State.setHoliday_holiday (h : Holiday) : (s.setHoliday h).holiday = h := rfl
@[simp] theorem State.setHoliday_runEntryAge (h : Holiday) : (s.setHoliday h).runEntryAge = s.runEntryAge := rfl
@[simp] theorem State.setHoliday_room (h : Holiday) : (s.setHoliday h).room = s.room := rfl
@[simp] theorem State.setHoliday_plant (h : Holiday) : (s.setHoliday h).plant = s.plant := rfl
@[simp] theorem State.setHoliday_newcomers (h : Holiday) : (s.setHoliday h).newcomers = s.newcomers := rfl
@[simp] theorem State.setHoliday_newcomerOverflow (h : Holiday) : (s.setHoliday h).newcomerOverflow = s.newcomerOverflow := rfl
@[simp] theorem State.setHoliday_driveQueue (h : Holiday) : (s.setHoliday h).driveQueue = s.driveQueue := rfl
@[simp] theorem State.setHoliday_nextIssue (h : Holiday) : (s.setHoliday h).nextIssue = s.nextIssue := rfl
@[simp] theorem State.setHoliday_pco (h : Holiday) : (s.setHoliday h).pco = s.pco := rfl
@[simp] theorem State.setHoliday_pls (h : Holiday) : (s.setHoliday h).pls = s.pls := rfl
@[simp] theorem State.setHoliday_mrs (h : Holiday) : (s.setHoliday h).mrs = s.mrs := rfl
@[simp] theorem State.setHoliday_freeCount (h : Holiday) : (s.setHoliday h).freeCount = s.freeCount := rfl
@[simp] theorem State.setHoliday_pending (h : Holiday) : (s.setHoliday h).pending = s.pending := rfl

/-! `State.setPending`. -/

@[simp] theorem State.setPending_work (q : List Instr) : (s.setPending q).work = s.work := rfl
@[simp] theorem State.setPending_store (q : List Instr) : (s.setPending q).store = s.store := rfl
@[simp] theorem State.setPending_storedMode (q : List Instr) : (s.setPending q).storedMode = s.storedMode := rfl
@[simp] theorem State.setPending_mode (q : List Instr) : (s.setPending q).mode = s.mode := rfl
@[simp] theorem State.setPending_zones (q : List Instr) : (s.setPending q).zones = s.zones := rfl
@[simp] theorem State.setPending_nodes (q : List Instr) : (s.setPending q).nodes = s.nodes := rfl
@[simp] theorem State.setPending_clock (q : List Instr) : (s.setPending q).clock = s.clock := rfl
@[simp] theorem State.setPending_holiday (q : List Instr) : (s.setPending q).holiday = s.holiday := rfl
@[simp] theorem State.setPending_runEntryAge (q : List Instr) : (s.setPending q).runEntryAge = s.runEntryAge := rfl
@[simp] theorem State.setPending_room (q : List Instr) : (s.setPending q).room = s.room := rfl
@[simp] theorem State.setPending_plant (q : List Instr) : (s.setPending q).plant = s.plant := rfl
@[simp] theorem State.setPending_newcomers (q : List Instr) : (s.setPending q).newcomers = s.newcomers := rfl
@[simp] theorem State.setPending_newcomerOverflow (q : List Instr) : (s.setPending q).newcomerOverflow = s.newcomerOverflow := rfl
@[simp] theorem State.setPending_driveQueue (q : List Instr) : (s.setPending q).driveQueue = s.driveQueue := rfl
@[simp] theorem State.setPending_nextIssue (q : List Instr) : (s.setPending q).nextIssue = s.nextIssue := rfl
@[simp] theorem State.setPending_pco (q : List Instr) : (s.setPending q).pco = s.pco := rfl
@[simp] theorem State.setPending_pls (q : List Instr) : (s.setPending q).pls = s.pls := rfl
@[simp] theorem State.setPending_mrs (q : List Instr) : (s.setPending q).mrs = s.mrs := rfl
@[simp] theorem State.setPending_freeCount (q : List Instr) : (s.setPending q).freeCount = s.freeCount := rfl
@[simp] theorem State.setPending_pending (q : List Instr) : (s.setPending q).pending = q := rfl

/-! `State.setSeg`. -/

@[simp] theorem State.setSeg_work (y : Segment) (v : SegState) : (s.setSeg y v).work = s.work := by
  cases y <;> rfl
@[simp] theorem State.setSeg_store (y : Segment) (v : SegState) : (s.setSeg y v).store = s.store := by
  cases y <;> rfl
@[simp] theorem State.setSeg_storedMode (y : Segment) (v : SegState) : (s.setSeg y v).storedMode = s.storedMode := by
  cases y <;> rfl
@[simp] theorem State.setSeg_mode (y : Segment) (v : SegState) : (s.setSeg y v).mode = s.mode := by
  cases y <;> rfl
@[simp] theorem State.setSeg_zones (y : Segment) (v : SegState) : (s.setSeg y v).zones = s.zones := by
  cases y <;> rfl
@[simp] theorem State.setSeg_nodes (y : Segment) (v : SegState) : (s.setSeg y v).nodes = s.nodes := by
  cases y <;> rfl
@[simp] theorem State.setSeg_clock (y : Segment) (v : SegState) : (s.setSeg y v).clock = s.clock := by
  cases y <;> rfl
@[simp] theorem State.setSeg_holiday (y : Segment) (v : SegState) : (s.setSeg y v).holiday = s.holiday := by
  cases y <;> rfl
@[simp] theorem State.setSeg_runEntryAge (y : Segment) (v : SegState) : (s.setSeg y v).runEntryAge = s.runEntryAge := by
  cases y <;> rfl
@[simp] theorem State.setSeg_newcomers (y : Segment) (v : SegState) : (s.setSeg y v).newcomers = s.newcomers := by
  cases y <;> rfl
@[simp] theorem State.setSeg_newcomerOverflow (y : Segment) (v : SegState) : (s.setSeg y v).newcomerOverflow = s.newcomerOverflow := by
  cases y <;> rfl
@[simp] theorem State.setSeg_driveQueue (y : Segment) (v : SegState) : (s.setSeg y v).driveQueue = s.driveQueue := by
  cases y <;> rfl
@[simp] theorem State.setSeg_nextIssue (y : Segment) (v : SegState) : (s.setSeg y v).nextIssue = s.nextIssue := by
  cases y <;> rfl
@[simp] theorem State.setSeg_pco (y : Segment) (v : SegState) : (s.setSeg y v).pco = s.pco := by
  cases y <;> rfl
@[simp] theorem State.setSeg_pls (y : Segment) (v : SegState) : (s.setSeg y v).pls = s.pls := by
  cases y <;> rfl
@[simp] theorem State.setSeg_mrs (y : Segment) (v : SegState) : (s.setSeg y v).mrs = s.mrs := by
  cases y <;> rfl
@[simp] theorem State.setSeg_freeCount (y : Segment) (v : SegState) : (s.setSeg y v).freeCount = s.freeCount := by
  cases y <;> rfl
@[simp] theorem State.setSeg_pending (y : Segment) (v : SegState) : (s.setSeg y v).pending = s.pending := by
  cases y <;> rfl

@[simp] theorem State.setSeg_seg_self (y : Segment) (v : SegState) : (s.setSeg y v).seg y = v := by
  cases y <;> rfl

@[simp] theorem State.setSeg_room_room (v : SegState) : (s.setSeg .room v).room = v := rfl
@[simp] theorem State.setSeg_room_plant (v : SegState) : (s.setSeg .room v).plant = s.plant := rfl
@[simp] theorem State.setSeg_plant_plant (v : SegState) : (s.setSeg .plant v).plant = v := rfl
@[simp] theorem State.setSeg_plant_room (v : SegState) : (s.setSeg .plant v).room = s.room := rfl

theorem State.setSeg_seg_other {x y : Segment} (v : SegState) (h : x ≠ y) :
    (s.setSeg y v).seg x = s.seg x := by
  cases x <;> cases y <;> first | rfl | exact absurd rfl h

@[simp] theorem State.seg_room : s.seg .room = s.room := rfl
@[simp] theorem State.seg_plant : s.seg .plant = s.plant := rfl

/-! Records read after an update. -/

@[simp] theorem State.setZone_zone_self (z : ZoneIx) (v : ZoneRt) : (s.setZone z v).zone z = v := by
  simp [State.zone, State.setZone]

theorem State.setZone_zone_ne {z y : ZoneIx} (v : ZoneRt) (h : y ≠ z) :
    (s.setZone z v).zone y = s.zone y := by
  have h' : z.val ≠ y.val := fun e => h (Fin.ext e.symm)
  simp [State.zone, State.setZone, h']

theorem State.setZone_zone (z y : ZoneIx) (v : ZoneRt) :
    (s.setZone z v).zone y = if y = z then v else s.zone y := by
  split
  · next h => subst h; simp
  · next h => exact s.setZone_zone_ne v h

@[simp] theorem State.setNode_node_self (i : NodeIx) (v : NodeRt) : (s.setNode i v).node i = v := by
  simp [State.node, State.setNode]

theorem State.setNode_node_ne {i j : NodeIx} (v : NodeRt) (h : j ≠ i) :
    (s.setNode i v).node j = s.node j := by
  have h' : i.val ≠ j.val := fun e => h (Fin.ext e.symm)
  simp [State.node, State.setNode, h']

theorem State.setNode_node (i j : NodeIx) (v : NodeRt) :
    (s.setNode i v).node j = if j = i then v else s.node j := by
  split
  · next h => subst h; simp
  · next h => exact s.setNode_node_ne v h

theorem State.setAct_node (i j : NodeIx) (a : Actuator) :
    (s.setAct i a).node j = if j = i then { s.node i with act := a } else s.node j := by
  simp only [State.setAct, State.setNode_node]

/-! Accessors that an update does not touch. -/

@[simp] theorem State.setZone_zoneCfg (k : ZoneIx) (z : ZoneIx) (v : ZoneRt) : (s.setZone z v).zoneCfg k = s.zoneCfg k := rfl
@[simp] theorem State.setZone_node (k : NodeIx) (z : ZoneIx) (v : ZoneRt) : (s.setZone z v).node k = s.node k := rfl
@[simp] theorem State.setZone_nodeCfg (k : NodeIx) (z : ZoneIx) (v : ZoneRt) : (s.setZone z v).nodeCfg k = s.nodeCfg k := rfl
@[simp] theorem State.setZone_seg (x : Segment) (z : ZoneIx) (v : ZoneRt) : (s.setZone z v).seg x = s.seg x := by
  cases x <;> rfl
@[simp] theorem State.setZone_ownAddress (z : ZoneIx) (v : ZoneRt) : (s.setZone z v).ownAddress = s.ownAddress := rfl
@[simp] theorem State.setNode_zone (k : ZoneIx) (i : NodeIx) (v : NodeRt) : (s.setNode i v).zone k = s.zone k := rfl
@[simp] theorem State.setNode_zoneCfg (k : ZoneIx) (i : NodeIx) (v : NodeRt) : (s.setNode i v).zoneCfg k = s.zoneCfg k := rfl
@[simp] theorem State.setNode_nodeCfg (k : NodeIx) (i : NodeIx) (v : NodeRt) : (s.setNode i v).nodeCfg k = s.nodeCfg k := rfl
@[simp] theorem State.setNode_seg (x : Segment) (i : NodeIx) (v : NodeRt) : (s.setNode i v).seg x = s.seg x := by
  cases x <;> rfl
@[simp] theorem State.setNode_ownAddress (i : NodeIx) (v : NodeRt) : (s.setNode i v).ownAddress = s.ownAddress := rfl
@[simp] theorem State.setAct_zone (k : ZoneIx) (i : NodeIx) (a : Actuator) : (s.setAct i a).zone k = s.zone k := rfl
@[simp] theorem State.setAct_zoneCfg (k : ZoneIx) (i : NodeIx) (a : Actuator) : (s.setAct i a).zoneCfg k = s.zoneCfg k := rfl
@[simp] theorem State.setAct_nodeCfg (k : NodeIx) (i : NodeIx) (a : Actuator) : (s.setAct i a).nodeCfg k = s.nodeCfg k := rfl
@[simp] theorem State.setAct_seg (x : Segment) (i : NodeIx) (a : Actuator) : (s.setAct i a).seg x = s.seg x := by
  cases x <;> rfl
@[simp] theorem State.setAct_ownAddress (i : NodeIx) (a : Actuator) : (s.setAct i a).ownAddress = s.ownAddress := rfl
@[simp] theorem State.setDrive_zone (k : ZoneIx) (q : List DriveEntry) : (s.setDrive q).zone k = s.zone k := rfl
@[simp] theorem State.setDrive_zoneCfg (k : ZoneIx) (q : List DriveEntry) : (s.setDrive q).zoneCfg k = s.zoneCfg k := rfl
@[simp] theorem State.setDrive_node (k : NodeIx) (q : List DriveEntry) : (s.setDrive q).node k = s.node k := rfl
@[simp] theorem State.setDrive_nodeCfg (k : NodeIx) (q : List DriveEntry) : (s.setDrive q).nodeCfg k = s.nodeCfg k := rfl
@[simp] theorem State.setDrive_seg (x : Segment) (q : List DriveEntry) : (s.setDrive q).seg x = s.seg x := by
  cases x <;> rfl
@[simp] theorem State.setDrive_ownAddress (q : List DriveEntry) : (s.setDrive q).ownAddress = s.ownAddress := rfl
@[simp] theorem State.setPco_zone (k : ZoneIx) (p : Coordinator) : (s.setPco p).zone k = s.zone k := rfl
@[simp] theorem State.setPco_zoneCfg (k : ZoneIx) (p : Coordinator) : (s.setPco p).zoneCfg k = s.zoneCfg k := rfl
@[simp] theorem State.setPco_node (k : NodeIx) (p : Coordinator) : (s.setPco p).node k = s.node k := rfl
@[simp] theorem State.setPco_nodeCfg (k : NodeIx) (p : Coordinator) : (s.setPco p).nodeCfg k = s.nodeCfg k := rfl
@[simp] theorem State.setPco_seg (x : Segment) (p : Coordinator) : (s.setPco p).seg x = s.seg x := by
  cases x <;> rfl
@[simp] theorem State.setPco_ownAddress (p : Coordinator) : (s.setPco p).ownAddress = s.ownAddress := rfl
@[simp] theorem State.setPls_zone (k : ZoneIx) (p : Supervisor) : (s.setPls p).zone k = s.zone k := rfl
@[simp] theorem State.setPls_zoneCfg (k : ZoneIx) (p : Supervisor) : (s.setPls p).zoneCfg k = s.zoneCfg k := rfl
@[simp] theorem State.setPls_node (k : NodeIx) (p : Supervisor) : (s.setPls p).node k = s.node k := rfl
@[simp] theorem State.setPls_nodeCfg (k : NodeIx) (p : Supervisor) : (s.setPls p).nodeCfg k = s.nodeCfg k := rfl
@[simp] theorem State.setPls_seg (x : Segment) (p : Supervisor) : (s.setPls p).seg x = s.seg x := by
  cases x <;> rfl
@[simp] theorem State.setPls_ownAddress (p : Supervisor) : (s.setPls p).ownAddress = s.ownAddress := rfl
@[simp] theorem State.setMrs_zone (k : ZoneIx) (m : Responder) : (s.setMrs m).zone k = s.zone k := rfl
@[simp] theorem State.setMrs_zoneCfg (k : ZoneIx) (m : Responder) : (s.setMrs m).zoneCfg k = s.zoneCfg k := rfl
@[simp] theorem State.setMrs_node (k : NodeIx) (m : Responder) : (s.setMrs m).node k = s.node k := rfl
@[simp] theorem State.setMrs_nodeCfg (k : NodeIx) (m : Responder) : (s.setMrs m).nodeCfg k = s.nodeCfg k := rfl
@[simp] theorem State.setMrs_seg (x : Segment) (m : Responder) : (s.setMrs m).seg x = s.seg x := by
  cases x <;> rfl
@[simp] theorem State.setMrs_ownAddress (m : Responder) : (s.setMrs m).ownAddress = s.ownAddress := rfl
@[simp] theorem State.setWork_zone (k : ZoneIx) (t : Tables) : (s.setWork t).zone k = s.zone k := rfl
@[simp] theorem State.setWork_node (k : NodeIx) (t : Tables) : (s.setWork t).node k = s.node k := rfl
@[simp] theorem State.setWork_seg (x : Segment) (t : Tables) : (s.setWork t).seg x = s.seg x := by
  cases x <;> rfl
@[simp] theorem State.setClock_zone (k : ZoneIx) (c : Clock) : (s.setClock c).zone k = s.zone k := rfl
@[simp] theorem State.setClock_zoneCfg (k : ZoneIx) (c : Clock) : (s.setClock c).zoneCfg k = s.zoneCfg k := rfl
@[simp] theorem State.setClock_node (k : NodeIx) (c : Clock) : (s.setClock c).node k = s.node k := rfl
@[simp] theorem State.setClock_nodeCfg (k : NodeIx) (c : Clock) : (s.setClock c).nodeCfg k = s.nodeCfg k := rfl
@[simp] theorem State.setClock_seg (x : Segment) (c : Clock) : (s.setClock c).seg x = s.seg x := by
  cases x <;> rfl
@[simp] theorem State.setClock_ownAddress (c : Clock) : (s.setClock c).ownAddress = s.ownAddress := rfl
@[simp] theorem State.setHoliday_zone (k : ZoneIx) (h : Holiday) : (s.setHoliday h).zone k = s.zone k := rfl
@[simp] theorem State.setHoliday_zoneCfg (k : ZoneIx) (h : Holiday) : (s.setHoliday h).zoneCfg k = s.zoneCfg k := rfl
@[simp] theorem State.setHoliday_node (k : NodeIx) (h : Holiday) : (s.setHoliday h).node k = s.node k := rfl
@[simp] theorem State.setHoliday_nodeCfg (k : NodeIx) (h : Holiday) : (s.setHoliday h).nodeCfg k = s.nodeCfg k := rfl
@[simp] theorem State.setHoliday_seg (x : Segment) (h : Holiday) : (s.setHoliday h).seg x = s.seg x := by
  cases x <;> rfl
@[simp] theorem State.setHoliday_ownAddress (h : Holiday) : (s.setHoliday h).ownAddress = s.ownAddress := rfl
@[simp] theorem State.setPending_zone (k : ZoneIx) (q : List Instr) : (s.setPending q).zone k = s.zone k := rfl
@[simp] theorem State.setPending_zoneCfg (k : ZoneIx) (q : List Instr) : (s.setPending q).zoneCfg k = s.zoneCfg k := rfl
@[simp] theorem State.setPending_node (k : NodeIx) (q : List Instr) : (s.setPending q).node k = s.node k := rfl
@[simp] theorem State.setPending_nodeCfg (k : NodeIx) (q : List Instr) : (s.setPending q).nodeCfg k = s.nodeCfg k := rfl
@[simp] theorem State.setPending_seg (x : Segment) (q : List Instr) : (s.setPending q).seg x = s.seg x := by
  cases x <;> rfl
@[simp] theorem State.setPending_ownAddress (q : List Instr) : (s.setPending q).ownAddress = s.ownAddress := rfl
@[simp] theorem State.setSeg_zone (k : ZoneIx) (y : Segment) (v : SegState) :
    (s.setSeg y v).zone k = s.zone k := by
  cases y <;> rfl
@[simp] theorem State.setSeg_zoneCfg (k : ZoneIx) (y : Segment) (v : SegState) :
    (s.setSeg y v).zoneCfg k = s.zoneCfg k := by
  cases y <;> rfl
@[simp] theorem State.setSeg_node (k : NodeIx) (y : Segment) (v : SegState) :
    (s.setSeg y v).node k = s.node k := by
  cases y <;> rfl
@[simp] theorem State.setSeg_nodeCfg (k : NodeIx) (y : Segment) (v : SegState) :
    (s.setSeg y v).nodeCfg k = s.nodeCfg k := by
  cases y <;> rfl
@[simp] theorem State.setSeg_ownAddress (y : Segment) (v : SegState) :
    (s.setSeg y v).ownAddress = s.ownAddress := by
  cases y <;> rfl

end Updates

end Sys2Proof.Machine
end

