-- ==== Sys2Proof/Laws/Frames.lean ====
section
/-! SUPPORT. What each shared operation leaves alone. -/

namespace Sys2Proof.Machine

open Sys2Proof

/-! ### The relation -/

theorem Keeps.refl (l : List Field) (s : State) : Keeps l s s := by
  intro f _
  cases f <;> simp [Field.same]

theorem Field.same_trans {f : Field} {s t u : State} (h : f.same s t) (k : f.same t u) :
    f.same s u := by
  cases f <;> simp_all [Field.same]

theorem Keeps.trans {l : List Field} {s t u : State} (h : Keeps l s t) (k : Keeps l t u) :
    Keeps l s u :=
  fun f hf => Field.same_trans (h f hf) (k f hf)

theorem Keeps.mono {l m : List Field} {s t : State} (h : Keeps l s t) (hs : l ⊆ m) : Keeps m s t :=
  fun f hf => h f (fun hl => hf (hs hl))

theorem Keeps.ite {l : List Field} {s t u : State} {c : Prop} [Decidable c] (h : Keeps l s t)
    (k : Keeps l s u) : Keeps l s (if c then t else u) := by
  split
  · exact h
  · exact k

theorem Keeps.foldl {α : Type} {l : List Field} {f : State → α → State}
    (h : ∀ s a, Keeps l s (f s a)) (xs : List α) (s : State) : Keeps l s (xs.foldl f s) := by
  induction xs generalizing s with
  | nil => exact Keeps.refl l s
  | cons a xs ih => exact (h s a).trans (ih (f s a))

theorem Keeps.forNodes {l : List Field} {f : NodeIx → State → State}
    (h : ∀ i s, Keeps l s (f i s)) (s : State) : Keeps l s (forNodes f s) :=
  Keeps.foldl (fun s i => h i s) allNodes s

theorem Keeps.forZones {l : List Field} {f : ZoneIx → State → State}
    (h : ∀ z s, Keeps l s (f z s)) (s : State) : Keeps l s (forZones f s) :=
  Keeps.foldl (fun s z => h z s) allZones s

/-! ### Updates -/

theorem setPco_keeps (p : Coordinator) (s : State) : Keeps [.pco] s (s.setPco p) := by
  intro f hf
  cases f <;> simp_all [Field.same]

theorem setPls_keeps (p : Supervisor) (s : State) : Keeps [.pls] s (s.setPls p) := by
  intro f hf
  cases f <;> simp_all [Field.same]

theorem setWork_keeps (t : Tables) (s : State) : Keeps [.work] s (s.setWork t) := by
  intro f hf
  cases f <;> simp_all [Field.same]

theorem setClock_keeps (c : Clock) (s : State) : Keeps [.clock] s (s.setClock c) := by
  intro f hf
  cases f <;> simp_all [Field.same]

theorem setHoliday_keeps (h : Holiday) (s : State) : Keeps [.holiday] s (s.setHoliday h) := by
  intro f hf
  cases f <;> simp_all [Field.same]

theorem setDrive_keeps (q : List DriveEntry) (s : State) : Keeps [.driveQueue] s (s.setDrive q) := by
  intro f hf
  cases f <;> simp_all [Field.same]

theorem setAct_keeps (i : NodeIx) (a : Actuator) (s : State) :
    Keeps [.actuators] s (s.setAct i a) := by
  intro f hf
  cases f <;> simp_all [Field.same, State.setAct_node, NodeRt.presencePart]
  all_goals intro j; split <;> simp_all

theorem setNode_keeps (i : NodeIx) (v : NodeRt) (s : State) (h : v.act = (s.node i).act) :
    Keeps [.presence] s (s.setNode i v) := by
  intro f hf
  cases f <;> simp_all [Field.same, State.setNode_node]
  all_goals intro j; split <;> simp_all

/-- A new regulator part of a zone record. -/
theorem setZone_keeps_regulation (z : ZoneIx) (v : ZoneRt) (s : State)
    (h : v.resolverPart = (s.zone z).resolverPart) (k : v.valveTarget = (s.zone z).valveTarget) :
    Keeps [.regulation] s (s.setZone z v) := by
  intro f hf
  cases f <;> simp_all [Field.same, State.setZone_zone]
  all_goals intro y; split <;> simp_all

/-- A new resolver part of a zone record. -/
theorem setZone_keeps_setpoints (z : ZoneIx) (v : ZoneRt) (s : State)
    (h : v.regulatorPart = (s.zone z).regulatorPart) (k : v.valveTarget = (s.zone z).valveTarget) :
    Keeps [.setpoints] s (s.setZone z v) := by
  intro f hf
  cases f <;> simp_all [Field.same, State.setZone_zone]
  all_goals intro y; split <;> simp_all

/-- A new valve target of a zone record. -/
theorem setZone_keeps_targets (z : ZoneIx) (v : ZoneRt) (s : State)
    (h : v.regulatorPart = (s.zone z).regulatorPart)
    (k : v.resolverPart = (s.zone z).resolverPart) :
    Keeps [.valveTargets] s (s.setZone z v) := by
  intro f hf
  cases f <;> simp_all [Field.same, State.setZone_zone]
  all_goals intro y; split <;> simp_all

end Sys2Proof.Machine
end

