-- ==== Sys2Proof/Laws/OpFrames.lean ====
section
/-! SUPPORT. Frames of the shared operations: the Event Queue, the queues, the resolver, the valves, the
supervisor and the coordinator. -/

namespace Sys2Proof.Machine

open Sys2Proof

/-! ### The Event Queue and the queues -/

theorem setMrs_keeps (m : Responder) (s : State) :
    Keeps [.outstanding, .warmResetPending, .events] s (s.setMrs m) := by
  intro f hf
  cases f <;> simp_all [Field.same]

theorem addEvent_keeps (b : EventBody) (s : State) : Keeps [.events] s (addEvent b s) := by
  intro f hf
  unfold addEvent
  split <;> cases f <;> simp_all [Field.same]

theorem pushOwn_keeps (x : Segment) (g : OwnFrame) (s : State) : Keeps [.own x] s (pushOwn x g s) := by
  intro f hf
  unfold pushOwn
  cases f <;> cases x <;> simp_all [Field.same]
  all_goals (rename_i y; cases y <;> simp_all [State.seg, State.setSeg])

theorem offerOwn_keeps (x : Segment) (g : OwnFrame) (s : State) :
    Keeps [.own x] s (offerOwn x g s) := by
  unfold offerOwn
  exact Keeps.ite (pushOwn_keeps x g s) (Keeps.refl _ s)

theorem setSeg_keeps_own (x : Segment) (q : List OwnFrame) (s : State) :
    Keeps [.own x] s (s.setSeg x { s.seg x with own := q }) := by
  intro f hf
  cases f <;> cases x <;> simp_all [Field.same]
  all_goals (rename_i y; cases y <;> simp_all [State.seg, State.setSeg])

theorem setSeg_keeps_fwd (x : Segment) (q : List Frame) (b : Bool) (s : State) :
    Keeps [.fwd x, .fwdOverflow x] s (s.setSeg x { s.seg x with fwd := q, fwdOverflow := b }) := by
  intro f hf
  cases f <;> cases x <;> simp_all [Field.same]
  all_goals (rename_i y; cases y <;> simp_all [State.seg, State.setSeg])

theorem setRx_keeps (x : Segment) (r : Rx) (s : State) : Keeps [.rx x] s (setRx x r s) := by
  intro f hf
  unfold setRx
  cases f <;> cases x <;> simp_all [Field.same]
  all_goals (rename_i y; cases y <;> simp_all [State.seg, State.setSeg])

theorem setTx_keeps (x : Segment) (r : Option Tx) (s : State) : Keeps [.tx x] s (setTx x r s) := by
  intro f hf
  unfold setTx
  cases f <;> cases x <;> simp_all [Field.same]
  all_goals (rename_i y; cases y <;> simp_all [State.seg, State.setSeg])

theorem setHealth_keeps (x : Segment) (h : Health) (s : State) :
    Keeps [.health x] s (setHealth x h s) := by
  intro f hf
  unfold setHealth
  cases f <;> cases x <;> simp_all [Field.same]
  all_goals (rename_i y; cases y <;> simp_all [State.seg, State.setSeg])

theorem setRoll_keeps (x : Segment) (r : Roll) (s : State) : Keeps [.roll x] s (setRoll x r s) := by
  intro f hf
  unfold setRoll
  cases f <;> cases x <;> simp_all [Field.same]
  all_goals (rename_i y; cases y <;> simp_all [State.seg, State.setSeg])

theorem offerDemand_keeps (g : OwnFrame) (s : State) : Keeps [.own .plant] s (offerDemand g s) := by
  unfold offerDemand
  exact Keeps.ite (setSeg_keeps_own .plant _ s) (offerOwn_keeps .plant g s)

theorem offerForward_keeps (y : Segment) (g : Frame) (s : State) :
    Keeps [.fwd y, .fwdOverflow y] s (offerForward y g s) := by
  unfold offerForward
  exact Keeps.ite (setSeg_keeps_fwd y _ _ s) (setSeg_keeps_fwd y _ _ s)

/-! ### The Setpoint Resolver -/

theorem recordResolution_keeps (z : ZoneIx) (r : Resolution) (s : State) :
    Keeps [.setpoints, .events] s (recordResolution z r s) := by
  unfold recordResolution
  have h := (setZone_keeps_setpoints z { s.zone z with schedLevel := r.level?, schedFault := r.fault? } s
    rfl rfl).mono (m := [.setpoints, .events]) (by simp)
  split
  · exact h
  · exact Keeps.ite h (h.trans ((addEvent_keeps _ _).mono (by simp)))

theorem settleSetpoint_keeps (z : ZoneIx) (r : Resolution) (s : State) :
    Keeps [.setpoints] s (settleSetpoint z r s) :=
  setZone_keeps_setpoints z _ s rfl rfl

theorem evaluateQuietly_keeps (z : ZoneIx) (s : State) :
    Keeps [.setpoints, .events] s (evaluateQuietly z s) :=
  (recordResolution_keeps z _ s).trans ((settleSetpoint_keeps z _ _).mono (by simp))

theorem sendNotices_keeps (z : ZoneIx) (s : State) : Keeps [.own .room] s (sendNotices z s) := by
  apply Keeps.forNodes
  intro i s
  exact Keeps.ite (offerOwn_keeps .room _ s) (Keeps.refl _ s)

/-- The fields an evaluation can change (R39). -/
theorem evaluate_keeps (z : ZoneIx) (s : State) :
    Keeps [.setpoints, .events, .own .room] s (evaluate z s) := by
  unfold evaluate
  have h := (evaluateQuietly_keeps z s).mono (m := [.setpoints, .events, .own .room]) (by simp)
  exact Keeps.ite h (h.trans ((sendNotices_keeps z _).mono (by simp)))

theorem evaluateAll_keeps (s : State) :
    Keeps [.setpoints, .events, .own .room] s (evaluateAll s) :=
  Keeps.forZones evaluate_keeps s

theorem evaluateAllQuietly_keeps (s : State) :
    Keeps [.setpoints, .events] s (evaluateAllQuietly s) :=
  Keeps.forZones evaluateQuietly_keeps s

theorem setOverride_keeps (z : ZoneIx) (o : Option Override) (s : State) :
    Keeps [.setpoints] s (setOverride z o s) :=
  setZone_keeps_setpoints z _ s rfl rfl

theorem placeOverride_keeps (z : ZoneIx) (o : Override) (s : State) :
    Keeps [.setpoints, .events, .own .room] s (placeOverride z o s) :=
  ((setOverride_keeps z _ s).mono (by simp)).trans (evaluate_keeps z _)

theorem removeOverride_keeps (z : ZoneIx) (s : State) :
    Keeps [.setpoints, .events, .own .room] s (removeOverride z s) := by
  unfold removeOverride
  split
  · exact ((setOverride_keeps z _ s).mono (by simp)).trans (evaluate_keeps z _)
  · exact Keeps.refl _ s

theorem placeUntilNext_keeps (z : ZoneIx) (sp : T16) (s : State) :
    Keeps [.setpoints, .events, .own .room] s (placeUntilNext z sp s) := by
  unfold placeUntilNext
  have h := (recordResolution_keeps z (resolveZone z s) s).mono
    (m := [.setpoints, .events, .own .room]) (by simp)
  simp only []
  split
  · exact h.trans (placeOverride_keeps z _ _)
  · exact h.trans (placeOverride_keeps z _ _)

theorem applyRequest_keeps (z : ZoneIx) (o : OverrideRequest) (s : State) :
    Keeps [.setpoints, .events, .own .room] s (applyRequest z o s) := by
  cases o
  · exact placeOverride_keeps z _ s
  · exact placeUntilNext_keeps z _ s
  · exact placeOverride_keeps z _ s
  · exact removeOverride_keeps z s

theorem tickResolver_keeps (s : State) :
    Keeps [.holiday, .setpoints, .events, .own .room] s (tickResolver s) := by
  unfold tickResolver
  have h := (setHoliday_keeps (tickHoliday s.holiday) s).mono
    (m := [.holiday, .setpoints, .events, .own .room]) (by simp)
  refine h.trans (Keeps.trans (Keeps.forZones ?_ _) ((evaluateAll_keeps _).mono (by simp)))
  intro z s
  exact (setOverride_keeps z _ s).mono (by simp)

/-! ### The Valve Drive Scheduler -/

theorem issueHead_keeps (e : DriveEntry) (rest : List DriveEntry) (s : State) :
    Keeps [.actuators, .driveQueue, .nextIssue, .own .plant] s (issueHead e rest s) := by
  unfold issueHead
  refine Keeps.trans ((pushOwn_keeps .plant (valveCmdFor s e) s).mono (by simp))
    (Keeps.trans ((setAct_keeps e.node (issuedAct (s.node e.node).act e s.nextIssue) _).mono
      (by simp)) ?_)
  intro f hf
  cases f <;> simp_all [Field.same, State.zone, State.node]
  all_goals (rename_i y; cases y <;> rfl)

theorem issueUpTo_keeps (n : Nat) (s : State) :
    Keeps [.actuators, .driveQueue, .nextIssue, .own .plant] s (issueUpTo n s) := by
  induction n generalizing s with
  | zero => exact Keeps.refl _ s
  | succ n ih =>
    unfold issueUpTo
    split
    · exact Keeps.refl _ s
    · exact Keeps.ite ((issueHead_keeps _ _ s).trans (ih _)) (Keeps.refl _ s)

/-- The fields an issue can change (R87). -/
theorem issue_keeps (s : State) :
    Keeps [.actuators, .driveQueue, .nextIssue, .own .plant] s (issue s) :=
  issueUpTo_keeps _ s

theorem dequeue_keeps (i : NodeIx) (s : State) : Keeps [.driveQueue] s (dequeue i s) :=
  setDrive_keeps _ s

theorem retarget_keeps (i : NodeIx) (t : Nat) (s : State) : Keeps [.driveQueue] s (retarget i t s) :=
  setDrive_keeps _ s

theorem enqueue_keeps (i : NodeIx) (t : Nat) (s : State) :
    Keeps [.actuators, .driveQueue] s (enqueue i t s) :=
  ((setDrive_keeps _ s).mono (by simp)).trans ((setAct_keeps i _ _).mono (by simp))

/-- The fields the placing of a target can change (R85). -/
theorem placeTarget_keeps (i : NodeIx) (t : Nat) (s : State) :
    Keeps [.actuators, .driveQueue, .nextIssue, .own .plant] s (placeTarget i t s) := by
  unfold placeTarget
  simp only []
  split
  · exact Keeps.ite (((enqueue_keeps i t s).mono (by simp)).trans (issue_keeps _)) (Keeps.refl _ s)
  · exact Keeps.ite ((retarget_keeps i t s).mono (by simp))
      (((dequeue_keeps i s).mono (by simp)).trans ((setAct_keeps i _ _).mono (by simp)))
  · exact (setAct_keeps i _ s).mono (by simp)

theorem deriveTarget_keeps (i : NodeIx) (s : State) :
    Keeps [.actuators, .driveQueue, .nextIssue, .own .plant] s (deriveTarget i s) := by
  unfold deriveTarget
  split
  · exact Keeps.ite (placeTarget_keeps i _ s) (Keeps.refl _ s)
  · exact Keeps.refl _ s

theorem deriveWhere_keeps (p : ZoneCfg → ZoneIx → Bool) (s : State) :
    Keeps [.actuators, .driveQueue, .nextIssue, .own .plant] s (deriveWhere p s) := by
  apply Keeps.forNodes
  intro i s
  split
  · exact Keeps.ite (deriveTarget_keeps i s) (Keeps.refl _ s)
  · exact Keeps.refl _ s

theorem handOverTarget_keeps (z : ZoneIx) (v : Nat) (s : State) :
    Keeps [.valveTargets, .actuators, .driveQueue, .nextIssue, .own .plant] s
      (handOverTarget z v s) := by
  unfold handOverTarget
  exact Keeps.trans (t := s.setZone z { s.zone z with valveTarget := v })
    ((setZone_keeps_targets z { s.zone z with valveTarget := v } s rfl rfl).mono (by simp))
    ((deriveWhere_keeps _ _).mono (by simp))

theorem overrunChanged_keeps (s : State) :
    Keeps [.actuators, .driveQueue, .nextIssue, .own .plant] s (overrunChanged s) :=
  deriveWhere_keeps _ s

theorem driveOnEntry_keeps (s : State) :
    Keeps [.actuators, .driveQueue, .nextIssue, .own .plant] s (driveOnEntry s) :=
  (deriveWhere_keeps _ s).trans (issue_keeps _)

theorem valveCmdCompleted_keeps (i : NodeIx) (n : Nat) (s : State) :
    Keeps [.actuators] s (valveCmdCompleted i n s) := by
  unfold valveCmdCompleted
  exact Keeps.ite (setAct_keeps i _ s) (Keeps.refl _ s)

theorem valveCmdAbandoned_keeps (i : NodeIx) (n : Nat) (s : State) :
    Keeps [.actuators] s (valveCmdAbandoned i n s) := by
  unfold valveCmdAbandoned
  exact Keeps.ite (setAct_keeps i _ s) (Keeps.refl _ s)

theorem untransmittedLost_keeps (s : State) : Keeps [.actuators] s (untransmittedLost s) := by
  apply Keeps.forNodes
  intro i s
  exact Keeps.ite (setAct_keeps i _ s) (Keeps.refl _ s)

/-- The fields the valves' own commands can change. -/
abbrev valveFields : List Field :=
  [.actuators, .driveQueue, .nextIssue, .own .plant, .events]

theorem motionExpired_keeps (i : NodeIx) (s : State) : Keeps valveFields s (motionExpired i s) := by
  unfold motionExpired
  refine Keeps.ite ?_ (Keeps.refl _ s)
  exact ((setAct_keeps i _ s).mono (by simp)).trans
    (((addEvent_keeps _ _).mono (by simp)).trans ((issue_keeps _).mono (by simp)))

theorem reachedTarget_keeps (i : NodeIx) (pos : Nat) (s : State) :
    Keeps valveFields s (reachedTarget i pos s) := by
  unfold reachedTarget
  simp only []
  have h := (setAct_keeps i (stoppedAct (s.node i).act none) s).mono (m := valveFields) (by simp)
  split
  · exact (Keeps.ite (h.trans ((enqueue_keeps i _ _).mono (by simp))) h).trans
      ((issue_keeps _).mono (by simp))
  · exact h.trans ((issue_keeps _).mono (by simp))

theorem stoppedBlocked_keeps (i : NodeIx) (s : State) : Keeps valveFields s (stoppedBlocked i s) :=
  ((setAct_keeps i _ s).mono (by simp)).trans
    (((addEvent_keeps _ _).mono (by simp)).trans ((issue_keeps _).mono (by simp)))

theorem valveStatus_keeps (i : NodeIx) (pos : Nat) (m : Option ReportedMotion) (s : State) :
    Keeps valveFields s (valveStatus i pos m s) := by
  unfold valveStatus
  split
  · exact Keeps.refl _ s
  · refine Keeps.ite ?_ (Keeps.refl _ s)
    have h := (setAct_keeps i { (s.node i).act with confirmed := some (min pos 100) } s).mono
      (m := valveFields) (by simp)
    refine Keeps.ite (h.trans ?_) h
    unfold motionReported
    split
    · exact Keeps.refl _ _
    · exact reachedTarget_keeps i _ _
    · exact stoppedBlocked_keeps i _

theorem leaveBus_keeps (i : NodeIx) (s : State) :
    Keeps [.actuators, .driveQueue, .nextIssue, .own .plant] s (leaveBus i s) :=
  ((dequeue_keeps i s).mono (by simp)).trans
    (((setAct_keeps i _ _).mono (by simp)).trans (issue_keeps _))

theorem joinBus_keeps (i : NodeIx) (s : State) :
    Keeps [.actuators, .driveQueue, .nextIssue, .own .plant] s (joinBus i s) := by
  unfold joinBus
  split
  · exact Keeps.ite (Keeps.refl _ s) (deriveTarget_keeps i s)
  · exact Keeps.refl _ s

theorem resetEntry_keeps (i : NodeIx) (s : State) :
    Keeps [.actuators, .driveQueue] s (resetEntry i s) :=
  ((dequeue_keeps i s).mono (by simp)).trans ((setAct_keeps i _ _).mono (by simp))

theorem standDownValves_keeps (s : State) :
    Keeps [.actuators, .driveQueue, .valveTargets] s (standDownValves s) := by
  unfold standDownValves
  refine Keeps.trans (Keeps.forNodes (fun i s => ?_) s) (Keeps.trans (Keeps.forZones (fun z s => ?_) _)
    ((setDrive_keeps _ _).mono (by simp)))
  · exact (setAct_keeps i (standDownAct (s.node i).act) s).mono (by simp)
  · exact (setZone_keeps_targets z { s.zone z with valveTarget := 0 } s rfl rfl).mono (by simp)

/-! ### The Plant Link Supervisor -/

/-- The fields the supervisor's work can change. -/
abbrev linkFields : List Field := [.pls, .pco, .events]

theorem setLink_keeps (p : Supervisor) (s : State) : Keeps linkFields s (setLink p s) :=
  ((setPls_keeps p s).mono (by simp)).trans ((setPco_keeps _ _).mono (by simp))

theorem charge_keeps (f : LinkFault) (s : State) : Keeps linkFields s (charge f s) := by
  unfold charge
  exact Keeps.ite ((setLink_keeps _ s).trans ((addEvent_keeps _ _).mono (by simp)))
    (setLink_keeps _ s)

theorem goodAnswer_keeps (a : Byte) (st : BoilerStatus) (flow : T16) (s : State) :
    Keeps linkFields s (goodAnswer a st flow s) := by
  have h := setLink_keeps (movedByGood s.work.plant.recoveryCount
    (goodCounts s.work.plant.polynomial st flow s.pls)) s
  have k : ∀ (c : Prop) [Decidable c] (b : EventBody) (t : State), Keeps linkFields s t →
      Keeps linkFields s (if c then addEvent b t else t) := fun c _ b t ht =>
    Keeps.ite (ht.trans ((addEvent_keeps b t).mono (by simp))) ht
  exact k _ _ _ (k _ _ _ h)

theorem closeWindow_keeps (w : Window) (s : State) : Keeps linkFields s (closeWindow w s) := by
  unfold closeWindow
  have h := (setPls_keeps { s.pls with window := none } s).mono (m := linkFields) (by simp)
  exact Keeps.ite h (h.trans (charge_keeps _ _))

theorem demandCompleted_keeps (flow : T16) (release : Bool) (s : State) :
    Keeps linkFields s (demandCompleted flow release s) := by
  unfold demandCompleted
  refine Keeps.ite ?_ (Keeps.refl _ s)
  refine Keeps.trans ?_ ((setPls_keeps _ _).mono (by simp))
  split
  · exact closeWindow_keeps _ s
  · exact Keeps.refl _ s

theorem judge_keeps (w : Window) (a answer : Byte) (st : BoilerStatus) (flow : T16) (s : State) :
    Keeps linkFields s (judge w a answer st flow s) := by
  unfold judge
  simp only []
  have h := (setPls_keeps { s.pls with window := some { w with judged := true } } s).mono
    (m := linkFields) (by simp)
  split
  · exact h.trans (charge_keeps _ _)
  · exact Keeps.ite (h.trans (goodAnswer_keeps _ _ _ _)) (h.trans (charge_keeps _ _))

theorem boilerAnswer_keeps (i : NodeIx) (payload : List Byte) (s : State) :
    Keeps linkFields s (boilerAnswer i payload s) := by
  unfold boilerAnswer
  split
  · exact Keeps.refl _ s
  · exact Keeps.refl _ s
  · split
    · exact Keeps.refl _ s
    · exact Keeps.ite (judge_keeps _ _ _ _ _ s) (Keeps.refl _ s)
  · exact Keeps.refl _ s

theorem expirySignalled_keeps (s : State) : Keeps linkFields s (expirySignalled s) := by
  unfold expirySignalled
  exact Keeps.ite (charge_keeps _ s) (Keeps.refl _ s)

theorem boilerEntryChanged_keeps (before : Bool) (s : State) :
    Keeps linkFields s (boilerEntryChanged before s) := by
  unfold boilerEntryChanged
  exact Keeps.ite (Keeps.refl _ s) (setLink_keeps _ s)

/-! ### The Plant Coordinator -/

/-- The fields a demand period expiry can change. -/
abbrev boilerFields : List Field :=
  [.pco, .pls, .events, .actuators, .driveQueue, .nextIssue, .own .plant]

theorem findPath_keeps (s : State) : Keeps [.pco] s (findPath s) := setPco_keeps _ s

theorem decideBurner_keeps (s : State) : Keeps [.pco] s (decideBurner s) := by
  unfold decideBurner
  exact Keeps.ite (Keeps.ite (setPco_keeps _ s) (Keeps.refl _ s))
    (Keeps.ite (setPco_keeps _ s) (Keeps.refl _ s))

theorem setPump_keeps (p : Pump) (s : State) :
    Keeps [.pco, .actuators, .driveQueue, .nextIssue, .own .plant] s (setPump p s) := by
  unfold setPump
  have h := (setPco_keeps { s.pco with pump := p } s).mono
    (m := [.pco, .actuators, .driveQueue, .nextIssue, .own .plant]) (by simp)
  exact Keeps.ite h (h.trans ((overrunChanged_keeps _).mono (by simp)))

theorem decidePump_keeps (s : State) :
    Keeps [.pco, .actuators, .driveQueue, .nextIssue, .own .plant] s (decidePump s) :=
  setPump_keeps _ s

theorem orderBoiler_keeps (s : State) : Keeps [.pco, .own .plant] s (orderBoiler s) := by
  unfold orderBoiler
  split
  · exact Keeps.ite (((offerDemand_keeps _ s).mono (by simp)).trans ((setPco_keeps _ _).mono (by simp)))
      (Keeps.refl _ s)
  · exact Keeps.refl _ s

/-- The fields a demand period expiry can change (R102). -/
theorem demandExpiry_keeps (s : State) : Keeps boilerFields s (demandExpiry s) :=
  ((findPath_keeps s).mono (by simp)).trans (((decideBurner_keeps _).mono (by simp)).trans
    (((decidePump_keeps _).mono (by simp)).trans (((orderBoiler_keeps _).mono (by simp)).trans
      ((expirySignalled_keeps _).mono (by simp)))))

theorem demandTimerRunOut_keeps (s : State) : Keeps boilerFields s (demandTimerRunOut s) := by
  unfold demandTimerRunOut
  split
  · exact ((setPco_keeps _ s).mono (by simp)).trans (demandExpiry_keeps _)
  · exact Keeps.refl _ s

theorem overrunRunOut_keeps (s : State) :
    Keeps [.pco, .actuators, .driveQueue, .nextIssue, .own .plant] s (overrunRunOut s) := by
  unfold overrunRunOut
  have h := (setPco_keeps { s.pco with overrunTimer := none } s).mono
    (m := [.pco, .actuators, .driveQueue, .nextIssue, .own .plant]) (by simp)
  exact Keeps.ite (h.trans (decidePump_keeps _)) h

theorem tickCoordinator_keeps (s : State) :
    Keeps [.pco, .actuators, .driveQueue, .nextIssue, .own .plant] s (tickCoordinator s) := by
  unfold tickCoordinator
  refine Keeps.trans (t := tickBurner s) ((setPco_keeps _ s).mono (by simp)) ?_
  unfold tickOverrun
  split
  · exact Keeps.refl _ _
  · exact Keeps.ite (overrunRunOut_keeps _) ((setPco_keeps _ _).mono (by simp))

theorem finalOrder_keeps (s : State) : Keeps [.pco, .own .plant] s (finalOrder s) := by
  unfold finalOrder
  split
  · exact Keeps.ite (Keeps.refl _ s)
      (((offerDemand_keeps _ s).mono (by simp)).trans ((setPco_keeps _ _).mono (by simp)))
  · exact Keeps.refl _ s

theorem standDownBoiler_keeps (s : State) : Keeps [.pco, .own .plant] s (standDownBoiler s) :=
  (finalOrder_keeps s).trans ((setPco_keeps _ _).mono (by simp))

end Sys2Proof.Machine
end

