-- ==== Sys2Proof/Laws/BlockFrames.lean ====
section
/-! SUPPORT. Frames of the Zone Regulator, the Roll Call Controller, the changes of mode and the
commands of the bus. -/

namespace Sys2Proof.Machine

open Sys2Proof

/-! ### The Zone Regulator -/

theorem recomputeZone_keeps (z : ZoneIx) (s : State) : Keeps [.regulation] s (recomputeZone z s) :=
  setZone_keeps_regulation z ((s.zone z).recompute (s.zoneCfg z).sensorTimeout) s rfl rfl

theorem takeInZone_keeps (i : NodeIx) (r : TempReport) (z : ZoneIx) (s : State) :
    Keeps [.regulation] s (takeInZone i r z s) := by
  unfold takeInZone
  simp only []
  refine Keeps.ite ?_ (Keeps.ite ?_ (Keeps.refl _ s))
  · exact (setZone_keeps_regulation z { s.zone z with slot0 := (s.zone z).slot0.take r } s rfl rfl).trans
      (recomputeZone_keeps z _)
  · exact (setZone_keeps_regulation z { s.zone z with slot1 := (s.zone z).slot1.take r } s rfl rfl).trans
      (recomputeZone_keeps z _)

theorem tempReport_keeps (i : NodeIx) (payload : List Byte) (s : State) :
    Keeps [.regulation] s (tempReport i payload s) := by
  unfold tempReport
  split
  · exact Keeps.ite (Keeps.forZones (takeInZone_keeps i _) s) (Keeps.refl _ s)
  · exact Keeps.refl _ s

theorem ageZone_keeps (z : ZoneIx) (s : State) : Keeps [.regulation] s (ageZone z s) :=
  (setZone_keeps_regulation z
    { s.zone z with slot0 := (s.zone z).slot0.ageOne, slot1 := (s.zone z).slot1.ageOne } s rfl rfl).trans
    (recomputeZone_keeps z _)

theorem setRunEntryAge_keeps (n : Nat) (s : State) :
    Keeps [.runEntryAge] s { s with runEntryAge := n } := by
  intro f hf
  cases f <;> simp_all [Field.same, State.zone, State.node]
  all_goals (rename_i y; cases y <;> rfl)

theorem regulatorEnterRun_keeps (s : State) :
    Keeps [.regulation, .runEntryAge] s (regulatorEnterRun s) := by
  unfold regulatorEnterRun
  refine Keeps.trans (Keeps.forZones (fun z s => ?_) s) ((setRunEntryAge_keeps 0 _).mono (by simp))
  exact (setZone_keeps_regulation z (enterRunZone (s.zoneCfg z) (slotCandidates s z) (s.zone z)) s rfl
    rfl).mono (by simp)

theorem regulatorLeaveRun_keeps (s : State) : Keeps [.regulation] s (regulatorLeaveRun s) :=
  Keeps.forZones (fun z s => setZone_keeps_regulation z (leaveRunZone (s.zone z)) s rfl rfl) s

theorem sensorEvents_keeps (z : ZoneIx) (n : Nat) (v : ZoneRt) (r : RegState) (s : State) :
    Keeps [.events] s (sensorEvents z n v r s) := by
  unfold sensorEvents
  exact Keeps.ite (addEvent_keeps _ s) (Keeps.ite (addEvent_keeps _ s) (Keeps.refl _ s))

/-- The fields a regulation event can change (R59). -/
abbrev regulateFields : List Field :=
  [.regulation, .events, .valveTargets, .actuators, .driveQueue, .nextIssue, .own .plant]

theorem regulate_keeps (z : ZoneIx) (s : State) : Keeps regulateFields s (regulate z s) := by
  have h : ∀ r d i w p, Keeps [.regulation] s (s.setZone z { s.zone z with
      reg := r, demand := d, integral := i, windowTimer := w, prevTemp := p }) :=
    fun r d i w p => setZone_keeps_regulation z _ s rfl rfl
  exact ((h _ _ _ _ _).mono (by simp)).trans (((sensorEvents_keeps z _ _ _ _).mono (by simp)).trans
    ((handOverTarget_keeps z _ _).mono (by simp)))

theorem periodExpired_keeps (z : ZoneIx) (s : State) : Keeps regulateFields s (periodExpired z s) :=
  Keeps.trans (t := s.setZone z { s.zone z with periodTimer := some (s.zoneCfg z).period })
    ((setZone_keeps_regulation z { s.zone z with periodTimer := some (s.zoneCfg z).period } s rfl
      rfl).mono (by simp)) (regulate_keeps z _)

theorem endWindowHold_keeps (z : ZoneIx) (s : State) : Keeps [.regulation] s (endWindowHold z s) := by
  unfold endWindowHold
  exact Keeps.ite (setZone_keeps_regulation z
    { s.zone z with reg := .normal, windowTimer := none, prevTemp := none } s rfl rfl) (Keeps.refl _ s)

theorem tickRegulator_keeps (s : State) :
    Keeps (.runEntryAge :: regulateFields) s (tickRegulator s) := by
  unfold tickRegulator
  refine Keeps.trans (Keeps.forZones (fun z s => (ageZone_keeps z s).mono (by simp)) s)
    (Keeps.trans (Keeps.forZones (fun z s => ?_) _) (Keeps.trans
      ((setRunEntryAge_keeps _ _).mono (by simp)) (Keeps.trans (Keeps.forZones (fun z s => ?_) _)
        (Keeps.forZones (fun z s => ?_) _))))
  · exact (setZone_keeps_regulation z
      { s.zone z with windowTimer := tickWindow (s.zone z).windowTimer } s rfl rfl).mono (by simp)
  · exact (setZone_keeps_regulation z
      { s.zone z with periodTimer := tickPeriod (s.zone z).periodTimer } s rfl rfl).mono (by simp)
  · unfold expireIfDue
    exact Keeps.ite ((periodExpired_keeps z s).mono (by simp)) (Keeps.refl _ s)

/-! ### Presence (R142, R159) -/

/-- The fields a change of presence can change. -/
abbrev presenceFields : List Field :=
  [.presence, .events, .actuators, .driveQueue, .nextIssue, .own .plant]

theorem tellValves_keeps (i : NodeIx) (p q : Presence) (s : State) :
    Keeps [.actuators, .driveQueue, .nextIssue, .own .plant] s (tellValves i p q s) := by
  unfold tellValves
  refine Keeps.ite ?_ (Keeps.refl _ s)
  split
  · exact joinBus_keeps i s
  · exact leaveBus_keeps i s
  · exact leaveBus_keeps i s
  · exact Keeps.refl _ s

theorem heardAtHome_keeps (i : NodeIx) (x : Segment) (s : State) :
    Keeps presenceFields s (heardAtHome i x s) := by
  unfold heardAtHome
  simp only []
  have h := (setNode_keeps i
    { s.node i with presence := heardPresence (s.node i).presence, missCount := 0, seen := true } s
    rfl).mono (m := presenceFields) (by simp)
  refine Keeps.trans (Keeps.ite (h.trans ((addEvent_keeps _ _).mono (by simp))) h)
    ((tellValves_keeps _ _ _ _).mono (by simp))

theorem becomeMismatch_keeps (i : NodeIx) (c : MismatchCause) (s : State) :
    Keeps presenceFields s (becomeMismatch i c s) := by
  unfold becomeMismatch
  refine Keeps.ite (Keeps.refl _ s) ?_
  exact ((setNode_keeps i { s.node i with presence := .mismatch c } s rfl).mono (by simp)).trans
    (((addEvent_keeps _ _).mono (by simp)).trans ((tellValves_keeps _ _ _ _).mono (by simp)))

theorem sourceHeard_keeps (i : NodeIx) (x : Segment) (s : State) :
    Keeps presenceFields s (sourceHeard i x s) := by
  unfold sourceHeard
  exact Keeps.ite (heardAtHome_keeps i x s) (becomeMismatch_keeps i .segment s)

theorem recordNewcomer_keeps (a : Byte) (s : State) : Keeps [.newcomers] s (recordNewcomer a s) := by
  intro f hf
  unfold recordNewcomer
  split
  · exact Keeps.refl [] s f (by simp)
  · split <;> cases f <;> simp_all [Field.same, State.zone, State.node] <;> cases ‹Segment› <;> rfl

theorem afterSource_keeps (x : Segment) (f : Frame) (s : State) :
    Keeps (.rx x :: .newcomers :: presenceFields) s (afterSource x f s) := by
  unfold afterSource
  split
  · exact Keeps.trans (t := setRx x .waitFree s) ((setRx_keeps x .waitFree s).mono (by simp))
      ((sourceHeard_keeps _ x _).mono (by simp))
  · exact Keeps.trans (t := setRx x .waitFree s) ((setRx_keeps x .waitFree s).mono (by simp))
      ((recordNewcomer_keeps _ _).mono (by simp))

/-! ### Roll call -/

theorem clearSeen_keeps (x : Segment) (g : Fin 8) (s : State) :
    Keeps [.presence] s (clearSeen x g s) := by
  apply Keeps.forNodes
  intro i s
  exact Keeps.ite (setNode_keeps i _ s rfl) (Keeps.refl _ s)

theorem placeRollCall_keeps (x : Segment) (g : Fin 8) (s : State) :
    Keeps [.roll x, .own x, .presence] s (placeRollCall x g s) := by
  unfold placeRollCall
  exact ((pushOwn_keeps x (rollCallFrame s g) s).mono (by simp)).trans
    (((setRoll_keeps x _ _).mono (by simp)).trans ((clearSeen_keeps x g _).mono (by simp)))

theorem rollExpiry_keeps (x : Segment) (s : State) :
    Keeps [.roll x, .own x, .presence] s (rollExpiry x s) := by
  unfold rollExpiry
  split
  · split
    · exact Keeps.ite (placeRollCall_keeps x _ s) (Keeps.refl _ s)
    · exact Keeps.refl _ s
  · exact Keeps.refl _ s

theorem rollTimerRunOut_keeps (x : Segment) (s : State) :
    Keeps [.roll x, .own x, .presence] s (rollTimerRunOut x s) := by
  unfold rollTimerRunOut
  exact ((setRoll_keeps x _ s).mono (by simp)).trans (rollExpiry_keeps x _)

theorem tickRoll_keeps (x : Segment) (s : State) :
    Keeps [.roll x, .own x, .presence] s (tickRoll x s) := by
  unfold tickRoll
  exact Keeps.ite (rollTimerRunOut_keeps x s) ((setRoll_keeps x _ s).mono (by simp))

theorem tickRollCall_keeps (s : State) :
    Keeps [.roll .room, .own .room, .roll .plant, .own .plant, .presence] s (tickRollCall s) :=
  ((tickRoll_keeps .room s).mono (by simp)).trans ((tickRoll_keeps .plant _).mono (by simp))

theorem checkRole_keeps (i : NodeIx) (code : Byte) (s : State) :
    Keeps presenceFields s (checkRole i code s) := by
  unfold checkRole
  simp only []
  refine Keeps.ite (Keeps.ite ?_ (Keeps.refl _ s)) (Keeps.ite (becomeMismatch_keeps i .role s)
    (Keeps.refl _ s))
  exact ((setNode_keeps i { s.node i with presence := .present } s rfl).mono (by simp)).trans
    ((tellValves_keeps _ _ _ _).mono (by simp))

theorem chargeMiss_keeps (i : NodeIx) (s : State) : Keeps presenceFields s (chargeMiss i s) := by
  unfold chargeMiss
  simp only []
  refine Keeps.ite ?_ ((setNode_keeps i { s.node i with missCount := (s.node i).missCount + 1 } s rfl).mono
    (m := presenceFields) (by simp))
  exact ((setNode_keeps i { s.node i with missCount := 3, presence := .absent } s rfl).mono
    (by simp)).trans (((addEvent_keeps _ _).mono (by simp)).trans
      ((tellValves_keeps _ _ _ _).mono (by simp)))

theorem rollWindowClosed_keeps (x : Segment) (s : State) :
    Keeps (.roll x :: presenceFields) s (rollWindowClosed x s) := by
  unfold rollWindowClosed
  split
  · refine Keeps.trans (Keeps.forNodes (fun i s => ?_) s) ((setRoll_keeps x _ _).mono (by simp))
    unfold closeNode
    exact Keeps.ite ((chargeMiss_keeps i s).mono (by simp)) (Keeps.refl _ s)
  · exact (setRoll_keeps x _ s).mono (by simp)
  · exact Keeps.refl _ s

/-! ### Changes of mode -/

theorem setMode_keeps (m : Mode) (s : State) : Keeps [.mode] s { s with mode := m } := by
  intro f hf
  cases f <;> simp_all [Field.same, State.zone, State.node]
  all_goals (rename_i y; cases y <;> rfl)

theorem coordinatorEnterRun_keeps (s : State) : Keeps [.pco] s (coordinatorEnterRun s) :=
  setPco_keeps _ s

theorem supervisorModeChange_keeps (q : Byte) (s : State) :
    Keeps linkFields s (supervisorModeChange q s) := setLink_keeps _ s

/-- The fields an entry into RUN can change (R174). -/
theorem enterRun_keeps (s : State) :
    Keeps [.mode, .events, .regulation, .runEntryAge, .pco, .pls, .actuators, .driveQueue, .nextIssue,
      .own .plant] s (enterRun s) := by
  unfold enterRun
  exact ((setMode_keeps .run s).mono (by simp)).trans (((addEvent_keeps _ _).mono (by simp)).trans
    (((regulatorEnterRun_keeps _).mono (by simp)).trans
      (((coordinatorEnterRun_keeps _).mono (by simp)).trans
        (((supervisorModeChange_keeps _ _).mono (by simp)).trans
          ((driveOnEntry_keeps _).mono (by simp))))))

/-- The fields a leaving of RUN can change (R175). -/
theorem leaveRun_keeps (s : State) :
    Keeps [.mode, .events, .regulation, .valveTargets, .actuators, .driveQueue, .pco, .pls,
      .own .plant] s (leaveRun s) := by
  unfold leaveRun
  exact ((setMode_keeps .commission s).mono (by simp)).trans
    (((addEvent_keeps _ _).mono (by simp)).trans
      (((standDownValves_keeps _).mono (by simp)).trans
        (((standDownBoiler_keeps _).mono (by simp)).trans
          (((regulatorLeaveRun_keeps _).mono (by simp)).trans
            ((supervisorModeChange_keeps _ _).mono (by simp))))))

/-! ### The bus -/

theorem abandonOwn_keeps (x : Segment) (f : OwnFrame) (s : State) :
    Keeps [.actuators, .roll x, .outstanding] s (abandonOwn x f s) := by
  unfold abandonOwn
  split
  · exact Keeps.refl _ s
  · exact (valveCmdAbandoned_keeps _ _ s).mono (by simp)
  · exact Keeps.refl _ s
  · unfold rollCallAbandoned
    exact Keeps.ite ((setRoll_keeps x _ s).mono (by simp)) (Keeps.refl _ s)
  · intro f hf
    cases f <;> simp_all [Field.same, replyAbandoned, setOutstanding]

theorem flushOwn_keeps (x : Segment) (s : State) :
    Keeps [.own x, .actuators, .roll x, .outstanding] s (flushOwn x s) := by
  unfold flushOwn
  exact Keeps.trans (t := s.setSeg x { s.seg x with own := [] })
    ((setSeg_keeps_own x [] s).mono (by simp))
    (Keeps.foldl (fun s f => (abandonOwn_keeps x f s).mono (by simp)) _ _)

theorem rollHealthLost_keeps (x : Segment) (s : State) : Keeps [.roll x] s (rollHealthLost x s) := by
  unfold rollHealthLost
  exact Keeps.ite (setRoll_keeps x _ s) (Keeps.refl _ s)

theorem becomeStuck_keeps (x : Segment) (s : State) :
    Keeps [.health x, .rx x, .roll x, .events] s (becomeStuck x s) := by
  unfold becomeStuck
  refine Keeps.ite ?_ (Keeps.refl _ s)
  exact ((setHealth_keeps x .stuck s).mono (by simp)).trans (((setRx_keeps x _ _).mono (by simp)).trans
    (((addEvent_keeps _ _).mono (by simp)).trans ((rollHealthLost_keeps x _).mono (by simp))))

theorem becomeUp_keeps (x : Segment) (s : State) :
    Keeps [.health x, .rx x, .events, .actuators, .driveQueue, .nextIssue, .own .plant] s
      (becomeUp x s) := by
  unfold becomeUp
  refine Keeps.ite (Keeps.refl _ s) ?_
  have h : Keeps [.health x, .rx x, .events, .actuators, .driveQueue, .nextIssue, .own .plant] s
      (addEvent (.segmentUp x (s.seg x).health)
        (setRx x (rxOnUp (s.seg x).health) (setHealth x .up s))) :=
    ((setHealth_keeps x .up s).mono (by simp)).trans (((setRx_keeps x _ _).mono (by simp)).trans
      ((addEvent_keeps _ _).mono (by simp)))
  cases x
  · exact h
  · exact h.trans ((issue_keeps _).mono (by simp))

end Sys2Proof.Machine
end

