-- ==== Sys2Proof/Laws/Ops.lean ====
section
/-! SUPPORT. What each shared operation does, said once. -/

namespace Sys2Proof.Machine

open Sys2Proof

/-! ### The Event Queue (R178) -/

theorem addEvent_room (b : EventBody) (s : State) (h : s.mrs.events.length < 16) :
    (addEvent b s).mrs
      = { s.mrs with events := s.mrs.events ++ [⟨b, s.clock.stamp⟩], attn := true } := by
  simp [addEvent, h]

theorem addEvent_full (b : EventBody) (s : State) (h : ¬s.mrs.events.length < 16) :
    (addEvent b s).mrs = { s.mrs with
      eventOverflow := true
      lateOverflow := s.mrs.lateOverflow || s.mrs.fetching } := by
  simp [addEvent, h]

theorem addEvent_zone (b : EventBody) (s : State) (z : ZoneIx) : (addEvent b s).zone z = s.zone z := by
  unfold addEvent
  split <;> rfl

theorem addEvent_node (b : EventBody) (s : State) (i : NodeIx) : (addEvent b s).node i = s.node i := by
  unfold addEvent
  split <;> rfl

theorem addEvent_pls (b : EventBody) (s : State) : (addEvent b s).pls = s.pls := by
  unfold addEvent
  split <;> rfl

theorem addEvent_pco (b : EventBody) (s : State) : (addEvent b s).pco = s.pco := by
  unfold addEvent
  split <;> rfl

/-- What an event makes of the responder depends on the responder and the clock alone. -/
theorem addEvent_mrs_congr (b : EventBody) {s t : State} (h : t.mrs = s.mrs) (k : t.clock = s.clock) :
    (addEvent b t).mrs = (addEvent b s).mrs := by
  by_cases hl : s.mrs.events.length < 16
  · rw [addEvent_room b s hl, addEvent_room b t (by rw [h]; exact hl), h, k]
  · rw [addEvent_full b s hl, addEvent_full b t (by rw [h]; exact hl), h]

/-! ### The queues (R147, R148) -/

theorem ownRoom_iff (s : State) (x : Segment) :
    ownRoom s x = true ↔ (s.seg x).health ≠ .noSupply ∧ (s.seg x).own.length < 8 := by
  simp [ownRoom]

theorem offerOwn_own (x : Segment) (f : OwnFrame) (s : State) :
    ((offerOwn x f s).seg x).own
      = if ownRoom s x = true then (s.seg x).own ++ [f] else (s.seg x).own := by
  unfold offerOwn
  split <;> simp [pushOwn]

theorem setOutstanding_keeps (r : Option Reply) (s : State) :
    Keeps [.outstanding] s (setOutstanding r s) := by
  intro f hf
  cases f <;> simp_all [Field.same, setOutstanding]

/-- A built reply is placed or refused as R170 says. -/
theorem buildReply_replied (q : MgmtRequest) (op : Byte) (result : Result) (data : List Byte)
    (fetch : Option FetchInfo) (s : State) (h : NoResetAtRefusal q s) :
    let t := buildReply ⟨.placed, q.src, q.seg, q.tag, op, result, data, fetch⟩ s
    Replied q op result data fetch s t ∧ Keeps (replyFields q) s t := by
  by_cases k : ownRoom s q.seg = true
  · refine ⟨?_, ?_⟩
    · simp only [Replied, if_pos ((ownRoom_iff s q.seg).1 k), buildReply, k, if_true]
      constructor <;> simp [pushOwn, setOutstanding, replyFrame]
    · simp only [buildReply, k, if_true]
      exact ((setOutstanding_keeps _ s).mono (by simp [replyFields])).trans
        ((pushOwn_keeps q.seg _ _).mono (by simp [replyFields]))
  · have hw : s.mrs.warmResetPending = false := h.resolve_left k
    have hb : buildReply ⟨.placed, q.src, q.seg, q.tag, op, result, data, fetch⟩ s = setOutstanding none s := by
      simp [buildReply, k, settleReset, setOutstanding, hw]
    simp only [hb, Replied, if_neg (fun j => k ((ownRoom_iff s q.seg).2 j))]
    exact ⟨⟨rfl, rfl⟩, (setOutstanding_keeps none s).mono (by simp [replyFields])⟩

/-- A copy is offered as R147 says. -/
theorem forward_copied (x : Segment) (f : Frame) (s : State) : Copied x f s (forward x f s) := by
  unfold Copied forward
  by_cases h : forwards s x f = true
  · by_cases k : (s.seg (otherSegment x)).health ≠ .noSupply ∧ (s.seg (otherSegment x)).fwd.length < 8
    · simp [h, k, offerForward]
    · have k' : ((s.seg (otherSegment x)).health != .noSupply
          && decide ((s.seg (otherSegment x)).fwd.length < 8)) = false :=
        Bool.eq_false_iff.mpr (fun hc => k (by simpa using hc))
      simp [h, k, k', offerForward]
  · simp [h]

theorem forward_keeps (x : Segment) (f : Frame) (s : State) :
    Keeps (copyFields x) s (forward x f s) := by
  unfold forward
  exact Keeps.ite (offerForward_keeps _ f s) (Keeps.refl _ s)

/-! ### Look-ups (R155) -/

theorem findNode_some {s : State} {a : Byte} {i : NodeIx} (h : findNode s a = some i) :
    (s.nodeCfg i).used = true ∧ (s.nodeCfg i).address = a := by
  have := List.find?_some h
  simpa using this

theorem findNode_none {s : State} {a : Byte} (h : findNode s a = none) (i : NodeIx)
    (u : (s.nodeCfg i).used = true) : (s.nodeCfg i).address ≠ a := by
  intro k
  have := List.find?_eq_none.mp h i (List.mem_finRange i)
  simp [u, k] at this

/-! ### Folds over the tables -/

theorem foldl_node_notMem (f : NodeIx → State → State) (j : NodeIx)
    (h : ∀ i s, i ≠ j → (f i s).node j = s.node j) (l : List NodeIx) (hj : j ∉ l) (s : State) :
    (l.foldl (fun s i => f i s) s).node j = s.node j := by
  induction l generalizing s with
  | nil => rfl
  | cons a l ih =>
    simp only [List.mem_cons, not_or] at hj
    rw [List.foldl_cons, ih hj.2, h a s (fun e => hj.1 e.symm)]

theorem foldl_zone_notMem (f : ZoneIx → State → State) (y : ZoneIx)
    (h : ∀ z s, z ≠ y → (f z s).zone y = s.zone y) (l : List ZoneIx) (hy : y ∉ l) (s : State) :
    (l.foldl (fun s z => f z s) s).zone y = s.zone y := by
  induction l generalizing s with
  | nil => rfl
  | cons a l ih =>
    simp only [List.mem_cons, not_or] at hy
    rw [List.foldl_cons, ih hy.2, h a s (fun e => hy.1 e.symm)]

/-- Every zone's record rewritten by itself. -/
theorem forZones_setZone (g : ZoneIx → ZoneRt → ZoneRt) (y : ZoneIx) (s : State) :
    (forZones (fun z s => s.setZone z (g z (s.zone z))) s).zone y = g y (s.zone y) := by
  have hne : ∀ (z : ZoneIx) (s : State), z ≠ y → (s.setZone z (g z (s.zone z))).zone y = s.zone y := by
    intro z s hz
    simp [State.setZone_zone, Ne.symm hz]
  obtain ⟨l1, l2, hl⟩ := List.append_of_mem (List.mem_finRange y)
  have nd : (l1 ++ y :: l2).Nodup := hl ▸ List.nodup_finRange 16
  have n1 : y ∉ l1 := fun h => (List.nodup_append.mp nd).2.2 y h y (by simp) rfl
  have n2 : y ∉ l2 := fun h => by
    have := (List.nodup_append.mp nd).2.1
    simp [h] at this
  unfold forZones allZones
  rw [hl, List.foldl_append, List.foldl_cons,
    foldl_zone_notMem (fun z s => s.setZone z (g z (s.zone z))) y hne l2 n2]
  simp only [State.setZone_zone, if_true]
  rw [foldl_zone_notMem (fun z s => s.setZone z (g z (s.zone z))) y hne l1 n1]

/-- Every node entry's fields rewritten by themselves. -/
theorem forNodes_setNode (g : NodeIx → NodeRt → NodeRt) (j : NodeIx) (s : State) :
    (forNodes (fun i s => s.setNode i (g i (s.node i))) s).node j = g j (s.node j) := by
  have hne : ∀ (i : NodeIx) (s : State), i ≠ j → (s.setNode i (g i (s.node i))).node j = s.node j := by
    intro i s hi
    simp [State.setNode_node, Ne.symm hi]
  obtain ⟨l1, l2, hl⟩ := List.append_of_mem (List.mem_finRange j)
  have nd : (l1 ++ j :: l2).Nodup := hl ▸ List.nodup_finRange 48
  have n1 : j ∉ l1 := fun h => (List.nodup_append.mp nd).2.2 j h j (by simp) rfl
  have n2 : j ∉ l2 := fun h => by
    have := (List.nodup_append.mp nd).2.1
    simp [h] at this
  unfold forNodes allNodes
  rw [hl, List.foldl_append, List.foldl_cons,
    foldl_node_notMem (fun i s => s.setNode i (g i (s.node i))) j hne l2 n2]
  simp only [State.setNode_node, if_true]
  rw [foldl_node_notMem (fun i s => s.setNode i (g i (s.node i))) j hne l1 n1]

/-! ### Issue (R87) -/

/-- An actuator without an entry in the Drive Queue is not issued to. -/
theorem issueUpTo_node (n : Nat) (i : NodeIx) (s : State)
    (h : i ∉ s.driveQueue.map DriveEntry.node) : (issueUpTo n s).node i = s.node i := by
  induction n generalizing s with
  | zero => rfl
  | succ n ih =>
    unfold issueUpTo
    split
    · rfl
    · rename_i e rest hq
      simp only [hq, List.map_cons, List.mem_cons, not_or] at h
      split
      · rw [ih _ (by simpa [issueHead] using h.2)]
        unfold issueHead
        have := State.setAct_node (pushOwn .plant (valveCmdFor s e) s) e.node i
          (issuedAct (s.node e.node).act e s.nextIssue)
        simp only [h.1, if_false] at this
        exact this
      · rfl

theorem issue_node (i : NodeIx) (s : State) (h : i ∉ s.driveQueue.map DriveEntry.node) :
    (issue s).node i = s.node i := issueUpTo_node _ i s h

/-- Issue takes entries from the head of the Drive Queue only. -/
theorem issueUpTo_driveQueue (n : Nat) (s : State) :
    (issueUpTo n s).driveQueue <:+ s.driveQueue := by
  induction n generalizing s with
  | zero => exact List.suffix_refl _
  | succ n ih =>
    unfold issueUpTo
    split
    · exact List.suffix_refl _
    · rename_i e rest hq
      split
      · refine (ih _).trans ?_
        rw [hq]
        exact List.suffix_cons e rest
      · exact List.suffix_refl _

theorem issue_driveQueue (s : State) : (issue s).driveQueue <:+ s.driveQueue :=
  issueUpTo_driveQueue _ s

/-- Issue appends to OQ-P. -/
theorem issueUpTo_own (n : Nat) (s : State) : s.plant.own <+: (issueUpTo n s).plant.own := by
  induction n generalizing s with
  | zero => exact List.prefix_refl _
  | succ n ih =>
    unfold issueUpTo
    split
    · exact List.prefix_refl _
    · rename_i e rest hq
      split
      · exact List.IsPrefix.trans (List.prefix_append s.plant.own [valveCmdFor s e])
          (ih (issueHead e rest s))
      · exact List.prefix_refl _

theorem issue_own (s : State) : s.plant.own <+: (issue s).plant.own := issueUpTo_own _ s

/-! ### The evaluation of a zone (R39) -/

theorem recordResolution_zone (z y : ZoneIx) (r : Resolution) (s : State) :
    (recordResolution z r s).zone y
      = if y = z then { s.zone z with schedLevel := r.level?, schedFault := r.fault? }
        else s.zone y := by
  unfold recordResolution
  have h := State.setZone_zone s z y { s.zone z with schedLevel := r.level?, schedFault := r.fault? }
  split
  · exact h
  · split
    · exact h
    · rw [addEvent_zone]
      exact h

theorem sendNotices_zone (z y : ZoneIx) (s : State) : (sendNotices z s).zone y = s.zone y := by
  have h := sendNotices_keeps z s
  have a := h .setpoints (by simp) y
  have b := h .regulation (by simp) y
  have c := h .valveTargets (by simp) y
  revert a b c
  cases (sendNotices z s).zone y
  cases s.zone y
  simp only [ZoneRt.resolverPart, ZoneRt.regulatorPart, ResolverPart.mk.injEq,
    RegulatorPart.mk.injEq, ZoneRt.mk.injEq, and_imp]
  intros
  simp_all

/-! ### Charges (R129, R130) -/

theorem setLink_pls (p : Supervisor) (s : State) : (setLink p s).pls = p := rfl

/-- A charge is as R129 and R130 say. -/
theorem charge_spec (f : LinkFault) (s : State) :
    ChargedFrom s.work.plant.faultThreshold s.pls (charge f s).pls ∧ FlagRefreshed s (charge f s) := by
  by_cases h : s.pls.plantState = .ok
      ∧ min (s.pls.errors + 1) s.work.plant.faultThreshold = s.work.plant.faultThreshold
  · simp [charge, chargedCounts, h, ChargedFrom, FlagRefreshed, addEvent_pls, addEvent_pco, setLink, refreshAvailable]
  · have hc : charge f s = setLink (chargedCounts s.work.plant.faultThreshold s.pls) s := if_neg h
    rw [hc]
    refine ⟨⟨rfl, rfl, rfl, ?_⟩, rfl⟩
    rw [setLink_pls]
    show if s.pls.plantState = .ok
        ∧ min (s.pls.errors + 1) s.work.plant.faultThreshold = s.work.plant.faultThreshold then _ else _
    rw [if_neg h]
    exact ⟨rfl, rfl, rfl⟩

/-! ### Reception and classification (R133, R139 to R144) -/

theorem receive_deaf {x : Segment} {s : State} (f : Frame) (h : canReceive s x = false) :
    receive x f s = s := by
  simp [receive, h]

/-- A frame of a known source on its configured segment is forwarded and handed off. -/
theorem receive_known {x : Segment} {f : Frame} {s : State} {i : NodeIx} (h : Accepted x f s)
    (hi : findNode s f.src = some i) (hx : (s.nodeCfg i).segment = x) :
    receive x f s = handOffKnown x i f (forward x f (afterSource x f s)) := by
  obtain ⟨h1, h2, h3, h4⟩ := h
  have e1 : findNode (setRx x .waitFree s) f.src = some i := by
    cases x <;> exact hi
  have e2 : (setRx x .waitFree s).ownAddress = s.ownAddress := by cases x <;> rfl
  have e3 : ((setRx x .waitFree s).nodeCfg i).segment = x := by cases x <;> exact hx
  simp [receive, classify, classifyKnown, afterSource, h1, h2, h3, h4, e1, e2, e3, hi]

/-- A frame of an unknown source is dropped in RUN, and goes on in COMMISSION. -/
theorem receive_unknown {x : Segment} {f : Frame} {s : State} (h : Accepted x f s)
    (hi : findNode s f.src = none) :
    receive x f s = if s.mode = .run then afterSource x f s
      else handOffUnknown x f (forward x f (afterSource x f s)) := by
  obtain ⟨h1, h2, h3, h4⟩ := h
  have e1 : findNode (setRx x .waitFree s) f.src = none := by
    cases x <;> exact hi
  have e2 : (setRx x .waitFree s).ownAddress = s.ownAddress := by cases x <;> rfl
  have e3 : (setRx x .waitFree s).mode = s.mode := by cases x <;> rfl
  simp [receive, classify, classifyUnknown, afterSource, h1, h2, h3, h4, e1, e2, e3, hi]

/-- A frame on the other segment is dropped after the source check. -/
theorem receive_away {x : Segment} {f : Frame} {s : State} {i : NodeIx} (h : Accepted x f s)
    (hi : findNode s f.src = some i) (hx : (s.nodeCfg i).segment ≠ x) :
    receive x f s = afterSource x f s := by
  obtain ⟨h1, h2, h3, h4⟩ := h
  have e1 : findNode (setRx x .waitFree s) f.src = some i := by
    cases x <;> exact hi
  have e2 : (setRx x .waitFree s).ownAddress = s.ownAddress := by cases x <;> rfl
  have e3 : ((setRx x .waitFree s).nodeCfg i).segment ≠ x := by cases x <;> exact hx
  simp [receive, classify, classifyKnown, afterSource, h1, h2, h3, h4, e1, e2, e3, hi]

/-! ### The minute tick (R36) -/

/-- Every order of a tick's operand takes each block once. -/
theorem blockOrder_perm (o : TickOrder) :
    (blockOrder o).Perm [.resolver, .regulator, .coordinator, .rollCall] := by
  obtain ⟨a, b, c⟩ := o
  revert a b c
  decide

end Sys2Proof.Machine
end

