-- ==== Sys2Proof/Laws/RuleTerms.lean ====
section
/-! SUPPORT. The operations do what the rules' own words in Safety.lean say of them: schedule resolution,
issue, the derivation of valve targets, freshness and the zone temperatures, and the check byte. -/

namespace Sys2Proof.Machine

open Sys2Proof

/-! ### Along -/

/-- A fold whose every step meets the relation meets it along the list. -/
theorem along_foldl {α : Type} {r : α → State → State → Prop} {f : State → α → State}
    (h : ∀ a s, r a s (f s a)) (l : List α) (s : State) : Along r l s (l.foldl f s) := by
  induction l generalizing s with
  | nil => rfl
  | cons a l ih => exact ⟨f s a, h a s, ih (f s a)⟩

/-! ### Schedule resolution (R27 to R31) -/

theorem profileNumber_iff (ref : SchedRef) (flag : Bool) (d n : Nat) :
    profileNumber ref flag d = some n ↔ NamesProfile d ref flag n := by
  constructor
  · intro h
    cases ref <;> cases flag <;> simp only [profileNumber, Option.some.injEq, reduceCtorEq, if_true,
      if_false, Bool.false_eq_true] at h <;> subst h <;> constructor
  · intro h
    cases h <;> rfl

theorem profileAt_val (t : Tables) (n : Fin 64) : profileAt t n.val = some t.profiles[n] := by
  simp [profileAt]

theorem profileAt_range (t : Tables) {n : Nat} (h : 63 < n) : profileAt t n = none := by
  simp only [profileAt]
  exact dif_neg (by omega)

/-- The last point at or before m splits the profile there. -/
theorem pointAt_some {ps : List SwitchPoint} {m : Nat} {p : SwitchPoint} (h : pointAt ps m = some p) :
    ∃ before after, ps = before ++ p :: after ∧ p.minute ≤ m ∧ ∀ q ∈ after, m < q.minute := by
  unfold pointAt at h
  obtain ⟨ys, hys⟩ := List.getLast?_eq_some_iff.mp h
  obtain ⟨l₁, l₂, rfl, h1, h2⟩ := List.filter_eq_append_iff.mp hys
  obtain ⟨a, b, rfl, ha, hp, hb⟩ := List.filter_eq_cons_iff.mp h2
  refine ⟨l₁ ++ a, b, by simp, by simpa using hp, fun q hq => ?_⟩
  have := List.filter_eq_nil_iff.mp hb q hq
  simpa using this

theorem pointAt_split {before after : List SwitchPoint} {m : Nat} {p : SwitchPoint} (hp : p.minute ≤ m)
    (h : ∀ q ∈ after, m < q.minute) : pointAt (before ++ p :: after) m = some p := by
  have ha : after.filter (fun q => decide (q.minute ≤ m)) = [] := by
    rw [List.filter_eq_nil_iff]
    intro q hq
    simpa using h q hq
  simp [pointAt, hp, ha]

theorem pointAt_none {ps : List SwitchPoint} {m : Nat} :
    pointAt ps m = none ↔ ∀ q ∈ ps, m < q.minute := by
  simp [pointAt]

/-- R31: the carry, by its rule. -/
theorem carries_iff (t : Tables) (d : Nat) (ref : SchedRef) (flag : Bool) (r : Resolution)
    (hr : ref ≠ .noRef) (he : EndsWalk ref) :
    Carries t ((d + 6) % 7) ref flag r ↔ carry t ref flag d = r := by
  constructor
  · rintro (⟨hn, hl⟩ | ⟨hn, hp⟩ | ⟨hn, hp⟩) <;> rw [← profileNumber_iff] at hn
    · simp [carry, hn, profileAt_range t hl]
    · simp [carry, hn, profileAt_val, hp]
    · simp [carry, hn, profileAt_val, hp]
  · intro h
    unfold carry at h
    split at h
    · rename_i hn
      exfalso
      cases ref with
      | noRef => exact hr rfl
      | direct p => simp [profileNumber] at hn
      | dayIndexed p => simp [profileNumber] at hn
      | linked l => exact (he l).1 rfl
      | linkedDayIndexed l => exact (he l).2 rfl
    · rename_i n hn
      rw [profileNumber_iff] at hn
      by_cases hl : n < 64
      · obtain ⟨k, rfl⟩ : ∃ k : Fin 64, k.val = n := ⟨⟨n, hl⟩, rfl⟩
        simp only [profileAt_val] at h
        split at h
        · rename_i hp
          subst h
          exact .empty hn (List.getLast?_eq_none_iff.mp hp)
        · rename_i p hp
          subst h
          obtain ⟨b, hb⟩ := List.getLast?_eq_some_iff.mp hp
          exact .last hn hb
      · simp only [profileAt_range t (by omega : 63 < n)] at h
        subst h
        exact .range hn (by omega)

/-- R29, R30: the selection, by its rules. -/
theorem selects_iff (t : Tables) (d m : Nat) (ref : SchedRef) (flag : Bool) (r : Resolution)
    (he : EndsWalk ref) : Selects t d m ref flag r ↔ selectLevel t ref flag d m = r := by
  constructor
  · intro h
    cases h with
    | noSchedule h => subst h; rfl
    | range hn hl =>
      rw [← profileNumber_iff] at hn
      simp [selectLevel, hn, profileAt_range t hl]
    | empty hn hp =>
      rw [← profileNumber_iff] at hn
      simp [selectLevel, hn, profileAt_val, hp]
    | @inForce n before after p hn hp hm ha =>
      have hpt := pointAt_split (before := before) hm ha
      rw [← profileNumber_iff] at hn
      rw [← hp] at hpt
      unfold selectLevel
      simp only [hn, profileAt_val]
      split
      · rename_i h; cases h
      · rename_i h
        simp only [Option.some.injEq] at h
        rw [h] at hp
        simp at hp
      · rename_i ps h
        simp only [Option.some.injEq] at h
        subst h
        rw [hpt]
    | @carried n _ hn hne hm hc =>
      have hr : ref ≠ .noRef := by rintro rfl; cases hn
      rw [carries_iff t d ref flag r hr he] at hc
      have hpt := pointAt_none.mpr hm
      rw [← profileNumber_iff] at hn
      obtain ⟨q, qs, hq⟩ := List.exists_cons_of_ne_nil hne
      rw [hq] at hpt
      simp only [selectLevel, hn, profileAt_val, hq, hpt]
      exact hc
  · intro h
    unfold selectLevel at h
    split at h
    · rename_i hn
      subst h
      refine .noSchedule ?_
      cases ref with
      | noRef => rfl
      | direct p => simp [profileNumber] at hn
      | dayIndexed p => simp [profileNumber] at hn
      | linked l => exact absurd rfl (he l).1
      | linkedDayIndexed l => exact absurd rfl (he l).2
    · rename_i n hn
      rw [profileNumber_iff] at hn
      have hr : ref ≠ .noRef := by rintro rfl; cases hn
      by_cases hl : n < 64
      · obtain ⟨k, rfl⟩ : ∃ k : Fin 64, k.val = n := ⟨⟨n, hl⟩, rfl⟩
        simp only [profileAt_val] at h
        split at h
        · rename_i hp; cases hp
        · rename_i hp
          simp only [Option.some.injEq] at hp
          subst h
          exact .empty hn hp
        · rename_i ps hne hp
          simp only [Option.some.injEq] at hp
          subst hp
          split at h
          · rename_i p hpt
            subst h
            obtain ⟨b, a, he', hm, ha⟩ := pointAt_some hpt
            exact .inForce hn he' hm ha
          · rename_i hpt
            refine .carried hn (fun hz => hne (by rw [hz])) (pointAt_none.mp hpt) ?_
            exact (carries_iff t d ref flag r hr he).mpr h
      · simp only [profileAt_range t (by omega : 63 < n)] at h
        subst h
        exact .range hn (by omega)

/-- R28: the walk with some hops left reaches exactly the references that so many links lead to and that end
the walk. -/
theorem walk_iff (links : Vector SchedRef 16) (hops : Nat) (ref : SchedRef) (flag : Bool)
    (last : SchedRef) (flag' : Bool) : walk links hops ref flag = some (last, flag')
      ↔ EndsWalk last ∧ ∃ n, n ≤ hops ∧ Reaches links n ref flag last flag' := by
  constructor
  · intro h
    induction hops generalizing ref flag with
    | zero =>
      cases ref <;> simp only [walk, Option.some.injEq, Prod.mk.injEq, reduceCtorEq] at h <;>
        obtain ⟨rfl, rfl⟩ := h <;> exact ⟨fun l => ⟨by simp, by simp⟩, 0, Nat.le_refl 0, .here _ _⟩
    | succ hops ih =>
      cases ref with
      | linked l =>
        obtain ⟨he, n, hn, hr⟩ := ih _ _ (by simpa only [walk] using h)
        exact ⟨he, n + 1, by omega, .linked hr⟩
      | linkedDayIndexed l =>
        obtain ⟨he, n, hn, hr⟩ := ih _ _ (by simpa only [walk] using h)
        exact ⟨he, n + 1, by omega, .linkedDay hr⟩
      | noRef | direct p | dayIndexed p =>
        simp only [walk, Option.some.injEq, Prod.mk.injEq] at h
        obtain ⟨rfl, rfl⟩ := h
        exact ⟨fun l => ⟨by simp, by simp⟩, 0, Nat.zero_le _, .here _ _⟩
  · rintro ⟨he, n, hn, hr⟩
    induction hr generalizing hops with
    | here ref flag =>
      cases ref with
      | linked l => exact absurd rfl (he l).1
      | linkedDayIndexed l => exact absurd rfl (he l).2
      | noRef | direct p | dayIndexed p => cases hops <;> rfl
    | linked hr ih =>
      cases hops with
      | zero => omega
      | succ hops => simpa only [walk] using ih hops he (by omega)
    | linkedDay hr ih =>
      cases hops with
      | zero => omega
      | succ hops => simpa only [walk] using ih hops he (by omega)

/-- R27: a resolution ends in exactly the outcome its rules give. -/
theorem resolves_iff (t : Tables) (c : Clock) (ref : SchedRef) (r : Resolution) :
    Resolves t c ref r ↔ resolve t c ref = r := by
  constructor
  · intro h
    cases h with
    | clockInvalid hc => simp [resolve, hc]
    | walked hc hn hr he hs =>
      have hw := (walk_iff t.links 4 ref false _ _).mpr ⟨he, _, hn, hr⟩
      simp only [resolve, hc, if_true, hw]
      exact (selects_iff t _ _ _ _ _ he).mp hs
    | tooDeep hc hd =>
      have hw : walk t.links 4 ref false = none := by
        rw [Option.eq_none_iff_forall_ne_some]
        rintro ⟨last, flag⟩ h
        obtain ⟨he, n, hn, hr⟩ := (walk_iff t.links 4 ref false last flag).mp h
        exact hd n last flag hn hr he
      simp [resolve, hc, hw]
  · intro h
    unfold resolve at h
    split at h
    · rename_i hc
      split at h
      · rename_i hw
        subst h
        refine .tooDeep hc fun n last flag hn hr he => ?_
        rw [(walk_iff t.links 4 ref false last flag).mpr ⟨he, n, hn, hr⟩] at hw
        cases hw
      · rename_i last flag hw
        obtain ⟨he, n, hn, hr⟩ := (walk_iff t.links 4 ref false last flag).mp hw
        exact .walked hc hn hr he ((selects_iff t _ _ _ _ _ he).mpr h)
    · rename_i hc
      subst h
      exact .clockInvalid (by simpa using hc)

/-! ### Issue and targets (R83, R85, R87) -/

theorem setAct_actSet (i : NodeIx) (a : Actuator) (s : State) : ActSet i a s (s.setAct i a) := by
  refine ⟨by simp [State.setAct_node], fun j hj => ?_⟩
  rw [State.setAct_node, if_neg hj]

theorem mayIssue_iff (s : State) : mayIssue s = true ↔ IssueAllowed s := by
  have h : movingCount s
      = (List.finRange 48).countP (fun i => decide ((s.node i).act.motion = .moving)) := by
    rw [List.countP_eq_length_filter]
    rfl
  unfold mayIssue IssueAllowed
  rw [← h, Bool.and_eq_true, Bool.and_eq_true, Bool.and_eq_true, decide_eq_true_eq, decide_eq_true_eq,
    beq_iff_eq, beq_iff_eq, and_assoc, and_assoc]
  rfl

theorem issueHead_headIssued (e : DriveEntry) (rest : List DriveEntry) (s : State)
    (h : s.driveQueue = e :: rest) : HeadIssued e s (issueHead e rest s) :=
  ⟨h, rfl, ⟨(setAct_actSet e.node _ s).1, (setAct_actSet e.node _ s).2⟩, rfl, issueHead_keeps e rest s⟩

theorem issueUpTo_issued (n : Nat) (s : State) (h : s.driveQueue.length ≤ n) :
    Issued s (issueUpTo n s) := by
  induction n generalizing s with
  | zero => exact .done (.inl (List.length_eq_zero_iff.mp (by omega)))
  | succ n ih =>
    unfold issueUpTo
    split
    · exact .done (.inl ‹_›)
    · rename_i e rest hq
      split
      · rename_i hm
        refine .next ((mayIssue_iff s).mp hm) (issueHead_headIssued e rest s hq) (ih _ ?_)
        rw [hq] at h
        simpa [issueHead] using h
      · rename_i hm
        exact .done (.inr (fun k => hm ((mayIssue_iff s).mpr k)))

/-- R87: issue does what the rule says. -/
theorem issue_issued (s : State) : Issued s (issue s) := issueUpTo_issued _ s (Nat.le_refl _)

/-- R85: a derived target is placed as the rule says. -/
theorem placeTarget_placed (i : NodeIx) (target : Nat) (s : State) :
    TargetPlaced i target s (placeTarget i target s) := by
  cases hm : (s.node i).act.motion <;> simp only [TargetPlaced, placeTarget, hm]
  · by_cases hw : worthSending s.work.plant.deadband (s.node i).act.lastCmd target = true
    · rw [if_pos hw]
      refine ⟨fun _ => ⟨enqueue i target s, rfl, ?_, enqueue_keeps i target s, issue_issued _⟩,
        fun h => absurd hw h⟩
      exact setAct_actSet i _ (s.setDrive _)
    · rw [if_neg hw]
      exact ⟨fun h => absurd h hw, fun _ => rfl⟩
  · by_cases hw : worthSending s.work.plant.deadband (s.node i).act.lastCmd target = true
    · rw [if_pos hw]
      exact ⟨fun _ => ⟨rfl, retarget_keeps i target s⟩, fun h => absurd hw h⟩
    · rw [if_neg hw]
      refine ⟨fun h => absurd h hw, fun _ => ⟨?_, setAct_actSet i _ (dequeue i s), ?_⟩⟩
      · simp only [dequeue, State.setAct_driveQueue, State.setDrive_driveQueue]
        congr 1
        funext e
        by_cases he : e.node = i <;> simp [he]
      · exact ((dequeue_keeps i s).mono (by simp)).trans ((setAct_keeps i _ _).mono (by simp))
  · exact ⟨setAct_actSet i _ s, setAct_keeps i _ s⟩

/-- An update of one actuator and the Drive Queue, with issue after it. -/
theorem issue_actThenIssued (i : NodeIx) (a : Actuator) (q : List DriveEntry) (s : State) :
    ActThenIssued i a q s (issue ((s.setDrive q).setAct i a)) := by
  refine ⟨(s.setDrive q).setAct i a, rfl, setAct_actSet i a (s.setDrive q), ?_, issue_issued _⟩
  exact ((setDrive_keeps q s).mono (by simp)).trans ((setAct_keeps i a _).mono (by simp))

/-- R96: an actuator leaves the bus as the rule says. -/
theorem leaveBus_left (i : NodeIx) (s : State) : LeftBus i s (leaveBus i s) := by
  have h : s.driveQueue.filter (fun e => decide (e.node ≠ i))
      = s.driveQueue.filter (fun e => e.node != i) := by
    congr 1
    funext e
    by_cases he : e.node = i <;> simp [he]
  unfold LeftBus
  rw [h]
  exact issue_actThenIssued i (leftAct (s.node i).act) _ s

theorem drivable_iff (s : State) (i : NodeIx) : drivable s i = true ↔ TakesTarget s i := by
  simp [drivable, TakesTarget, NodeCfg.isActuator, NodeCfg.used, and_assoc]

theorem deriveTarget_derived (concerned : ZoneIx → Prop) (i : NodeIx) {s : State} {z : ZoneIx}
    (hz : (s.nodeCfg i).zone = some z) (hc : concerned z) :
    TargetDerived concerned i s (deriveTarget i s) := by
  have ht : targetOf s z = (if (s.zoneCfg z).overrunPath = true ∧ s.pco.pump = .overrun then
      max (s.zone z).valveTarget s.work.plant.flowPathMin else (s.zone z).valveTarget) := by
    simp [targetOf]
  unfold TargetDerived deriveTarget
  simp only [hz, Option.some.injEq, forall_eq']
  by_cases hd : drivable s i = true
  · rw [if_pos hd, ← ht]
    exact ⟨fun _ _ => placeTarget_placed i _ s, fun h => absurd ((drivable_iff s i).mp hd) (h hc)⟩
  · rw [if_neg hd]
    exact ⟨fun _ h => absurd ((drivable_iff s i).mpr h) hd, fun _ => rfl⟩

/-- R83: an actuator joins the bus as the rule says. -/
theorem joinBus_joined (i : NodeIx) (s : State) : JoinedBus i s (joinBus i s) := by
  unfold JoinedBus joinBus
  split
  · rename_i z hz
    by_cases he : (s.zoneCfg z).enabled = true
    · rw [if_pos he]
      refine ⟨fun y hy hc => ?_, fun _ => rfl⟩
      rw [hz, Option.some.injEq] at hy
      rw [← hy, he] at hc
      cases hc
    · rw [if_neg he]
      exact deriveTarget_derived _ i hz (Bool.eq_false_iff.mpr he)
  · rename_i hz
    exact ⟨fun y hy => absurd (hz.symm.trans hy) (by simp), fun _ => rfl⟩

/-- R83: targets are derived as the rule says, for a choice of zones that rests on their configuration. -/
theorem deriveWhere_derived (p : ZoneCfg → ZoneIx → Bool) (concerned : ZoneIx → Prop) (s : State)
    (h : ∀ z, p (s.zoneCfg z) z = true ↔ concerned z) :
    TargetsDerived concerned s (deriveWhere p s) := by
  unfold TargetsDerived deriveWhere forNodes allNodes
  generalize List.finRange 48 = l
  induction l generalizing s with
  | nil => rfl
  | cons i l ih =>
    rw [List.foldl_cons]
    refine ⟨_, ?_, ih _ ?_⟩
    · dsimp only
      split
      · rename_i z hz
        by_cases hp : p (s.zoneCfg z) z = true
        · rw [if_pos hp]
          exact deriveTarget_derived concerned i hz ((h z).mp hp)
        · rw [if_neg hp]
          refine ⟨fun y hy hc => ?_, fun _ => rfl⟩
          rw [hz, Option.some.injEq] at hy
          exact absurd ((h y).mpr hc) (hy ▸ hp)
      · rename_i hz
        exact ⟨fun y hy => absurd (hz.symm.trans hy) (by simp), fun _ => rfl⟩
    · intro z
      rw [← h z]
      have hw : ∀ t : State, Keeps issueFields s t → t.zoneCfg z = s.zoneCfg z := by
        intro t k
        have := k .work (by simp [issueFields])
        simp only [Field.same] at this
        simp only [State.zoneCfg, this]
      rw [hw]
      dsimp only
      split
      · exact Keeps.ite (deriveTarget_keeps i s) (Keeps.refl _ s)
      · exact Keeps.refl _ s

/-- R83, R98: an entry into RUN drives the valves as the rules say. -/
theorem driveOnEntry_driven (s : State) : EntryDriven s (driveOnEntry s) :=
  ⟨_, deriveWhere_derived _ _ s (fun z => by simp), issue_issued _⟩

/-! ### Temperatures and regulation (R16, R17, R62, R72) -/

theorem isFresh_iff (timeout : Nat) (c : Slot) : IsFresh timeout c ↔ c.fresh timeout = true := by
  cases h : c.age <;> simp [Slot.fresh, h]

/-- The temperatures computed from two slots are the ones of R17. -/
theorem temps_are (timeout : Nat) (c0 c1 : Slot) :
    TempsAre timeout c0 c1 (zoneTempOf timeout c0 c1) (floorTempOf timeout c0 c1) := by
  have half : ∀ a b : Int, ∃ m, some (Int.fdiv (a + b) 2) = some m ∧ 2 * m ≤ a + b ∧ a + b < 2 * m + 2 :=
    fun a b => ⟨_, rfl, by rw [Int.fdiv_eq_ediv_of_nonneg _ (by decide)]; omega,
      by rw [Int.fdiv_eq_ediv_of_nonneg _ (by decide)]; omega⟩
  have larger : ∀ a b : Int, some (if a < b then b else a) = some (max a b) := by
    intro a b
    split <;> simp <;> omega
  simp only [TempsAre, isFresh_iff, zoneTempOf, floorTempOf, Slot.freshAir, Slot.freshFloor]
  constructor
  · generalize (if c0.fresh timeout = true then c0.air else none) = a
    generalize (if c1.fresh timeout = true then c1.air else none) = b
    cases a <;> cases b <;> first | exact half _ _ | rfl
  · generalize (if c0.fresh timeout = true then c0.floor else none) = a
    generalize (if c1.fresh timeout = true then c1.floor else none) = b
    cases a <;> cases b <;> first | exact larger _ _ | rfl

theorem workingTemp_eq (c : ZoneCfg) (v : ZoneRt) : workingTemp c v = eventTemp c v := by
  simp only [workingTemp, eventTemp, isFresh_iff, ZoneRt.anyFresh, Bool.or_eq_true]

theorem actuatorMoves_iff (s : State) (z : ZoneIx) : ActuatorMoves s z ↔ zoneMoving s z = true := by
  have motion : ∀ m : Motion, m ≠ .idle ↔ m = .queued ∨ m = .moving := fun m => by cases m <;> simp
  simp [ActuatorMoves, zoneMoving, allNodes, NodeCfg.isActuator, NodeCfg.used, motion, and_assoc]

/-! ### The groups of a roll call (R161) -/

theorem groupHolds_iff (s : State) (x : Segment) (g : Fin 8) (i : NodeIx) :
    GroupHolds s x g i ↔ inGroup s x g i = true := by
  simp [GroupHolds, inGroup, NodeCfg.used, groupOf, and_assoc]

/-! ### The check of a frame (R133) -/

theorem crcBit_xor (x y : Byte) : crcBit (x ^^^ y) = crcBit x ^^^ crcBit y := by
  have linear : ∀ c : Byte, crcBit c = (c <<< 1) ^^^ (if c.msb = true then 0x2F#8 else 0#8) := by decide +kernel
  have masks : ∀ p q : Bool, (if (p ^^ q) = true then 0x2F#8 else 0#8)
      = (if p = true then 0x2F#8 else 0#8) ^^^ (if q = true then 0x2F#8 else 0#8) := by decide
  rw [linear, linear x, linear y, BitVec.shiftLeft_xor_distrib, BitVec.msb_xor, masks]
  ac_rfl

theorem checkBit_xor (x y : Byte) (b : Bool) : checkBit (x ^^^ y) b = crcBit x ^^^ checkBit y b := by
  have shifted : ∀ (c : Byte) (b : Bool), checkBit c b = crcBit (c ^^^ (if b = true then 0x80#8 else 0#8)) := by
    decide +kernel
  rw [shifted, shifted, BitVec.xor_assoc, crcBit_xor]

/-- The check taken bit by bit is the one computed byte by byte. -/
theorem checkOf_eq (bytes : List Byte) : checkOf bytes = crc8 bytes := by
  have zero : ∀ b : Byte, (bitsOf b).foldl checkBit 0#8 = crcByte 0#8 b := by decide +kernel
  have byte : ∀ c b : Byte, (bitsOf b).foldl checkBit c = crcByte c b := by
    intro c b
    have h := zero b
    simp only [bitsOf, List.foldl, crcByte, BitVec.zero_xor] at h ⊢
    conv => lhs; rw [← BitVec.xor_zero (x := c)]
    simp only [checkBit_xor, h, crcBit_xor]
  simp only [checkOf, crc8, List.foldl_flatMap]
  congr 1
  funext c b
  exact byte c b

end Sys2Proof.Machine
end

