-- ==== Sys2Proof/Tests/Slice0.lean ====
section
/-! SUPPORT. Tests: commands the world cannot send, worked examples of the manual, and for each statement
with hypotheses a state and operands that meet them. -/

namespace Sys2Proof.Tests

open Sys2Proof Sys2Proof.Machine

-- One theorem at a time: checked all at once, their threads would exceed the memory limit.
set_option Elab.async false

/-! ### WellFormed: an ill-formed command for each check -/

/-- A request from the manager of the house below. -/
def request (table index : Byte) (data : List Byte) : MgmtRequest :=
  ⟨.room, 0x7E, 0x10, 9, table, index, data⟩

theorem test_wf_payload_of_33 :
    (Instr.foreignFrame .room 0 0x21 0x30 (List.replicate 33 0)).wf = false
      ∧ (Instr.foreignFrame .room 0 0x21 0x30 (List.replicate 32 0)).wf = true := by decide +kernel

theorem test_wf_kind_out_of_range :
    (Instr.foreignFrame .room 0 0x21 0x00 []).wf = false
      ∧ (Instr.foreignFrame .room 0 0x21 0x40 []).wf = false
      ∧ (Instr.foreignFrame .room 0 0x21 0x3F []).wf = true := by decide +kernel

theorem test_wf_source_out_of_range :
    (Instr.tempReport .room 0 0x00 [1, 0, 0]).wf = false
      ∧ (Instr.tempReport .room 0 0x7F [1, 0, 0]).wf = false
      ∧ (Instr.tempReport .room 0 0x7E [1, 0, 0]).wf = true := by decide +kernel

theorem test_wf_destination_out_of_range :
    (Instr.timeSet .room 0x7F 0x10 [0, 0]).wf = false
      ∧ (Instr.timeSet .room 0x7E 0x10 [0, 0]).wf = true := by decide +kernel

theorem test_wf_foreign_of_an_owned_kind :
    (Instr.foreignFrame .room 0 0x21 0x08 [1, 0, 0]).wf = false
      ∧ (Instr.foreignFrame .room 0 0x21 0x0A [1, 0, 0]).wf = true := by decide +kernel

theorem test_wf_request_data_of_29 :
    (Instr.readPlant (request 0 0 (List.replicate 29 0))).wf = false
      ∧ (Instr.readPlant (request 0 0 (List.replicate 28 0))).wf = true := by decide +kernel

theorem test_wf_mode_rows :
    (Instr.setModeRun (request 0 0 [0])).wf = false
      ∧ (Instr.setModeCommission (request 0 0 [1])).wf = false
      ∧ (Instr.setModeCommission (request 0 0 [0])).wf = true := by decide +kernel

theorem test_wf_bad_operation_row :
    (Instr.mgmtRequestBadOp (request 0 0 []) 0x0D).wf = false
      ∧ (Instr.mgmtRequestBadOp (request 0 0 []) 0x0E).wf = true
      ∧ (Instr.mgmtRequestBadOp (request 0 0 []) 0x00).wf = true := by decide +kernel

theorem test_wf_malformed_row :
    (Instr.malformedFrame .room (mkFrame 0 0x21 0x30 [7]).bytes).wf = false
      ∧ (Instr.malformedFrame .room [0, 0x21, 0x30, 33]).wf = true
      ∧ (Instr.malformedFrame .room [0, 0x21, 0x30, 32]).wf = false := by decide +kernel

theorem test_wf_bit_past_the_longest_frame :
    (Instr.lostArbitration .room 370).wf = false ∧ (Instr.lostArbitration .room 369).wf = true := by
  decide +kernel

/-! ### Worked figures of the manual -/

/-- 7.3.1: the steps from 0x5A. -/
theorem test_question_steps :
    stepQuestion .polyA 0x5A = 0xB4 ∧ stepQuestion .polyA 0xB4 = 0x69
      ∧ stepQuestion .polyB 0xB4 = 0x68 ∧ stepQuestion .polyB 0x68 = 0xD1 := by decide

/-- 7.4: the expected answers of the table. -/
theorem test_expected_answers :
    expectedAnswer 0x5A 737 true = 0x3B ∧ expectedAnswer 0x69 600 true = 0xB1
      ∧ expectedAnswer 0xB4 0 false = 0xB4 := by decide

/-- R105: the flow targets of the table. -/
theorem test_flow_targets :
    flowTarget PlantCfg.default 150 = 540 ∧ flowTarget PlantCfg.default 643 = 737
      ∧ flowTarget PlantCfg.default 999 = 879 := by decide

/-- R71: an error of -7 with Pb at 32 gives P = -218. -/
theorem test_proportional_truncates : proportional 32 300 307 = -218 := by decide

/-- R74: 4 gives 0, 5 gives 1, 994 gives 99 and 995 gives 100. -/
theorem test_valve_target_rounds :
    valveTargetOf 4 = 0 ∧ valveTargetOf 5 = 1 ∧ valveTargetOf 994 = 99 ∧ valveTargetOf 995 = 100 := by
  decide

/-- R84: 36 to 44 are not worth sending from 40, 35 and 45 are; from 3, 0 is and 1 is not. -/
theorem test_worth_sending :
    worthSending 5 (some 40) 36 = false ∧ worthSending 5 (some 40) 35 = true
      ∧ worthSending 5 (some 3) 0 = true ∧ worthSending 5 (some 3) 1 = false := by decide

/-- R31: minute 0 of day 0 carries into day 6; DAY_INDEXED 8 gives profile 14. -/
theorem test_carry_into_sunday :
    let t := { Tables.default with
      profiles := (Tables.default.profiles.set 8 [⟨360, 3⟩]).set 14 [⟨0, 2⟩, ⟨1380, 1⟩] }
    resolve t ⟨0, true⟩ (.dayIndexed 8) = .level 1 := by decide +kernel

/-- R2, R120: 255 is in the ranges of Ti and of the question seed, and is taken (log 31). -/
theorem test_bytes_of_255 :
    (rdZone (zoneCfgBytes { ZoneCfg.default with ti := 255 })).map ZoneCfg.ti = some 255
      ∧ (rdPlant (plantCfgBytes { PlantCfg.default with seed := 0xFF })).map PlantCfg.seed = some 0xFF := by
  decide +kernel

/-- R16, R17: with the timeout at 10 a slot is fresh at age 9 and not at 10; the mean of -17 and -20 is -19, of
328 and 316 it is 322, and the larger floor reading counts. -/
theorem test_temperatures :
    let slot := fun air floor age => (⟨some 1, some air, floor, false, some age, true⟩ : Slot)
    zoneTempOf 10 (slot (-17) none 9) (slot (-20) none 0) = some (-19)
      ∧ zoneTempOf 10 (slot 328 none 0) (slot 316 none 0) = some 322
      ∧ zoneTempOf 10 (slot 328 none 10) (slot 316 none 9) = some 316
      ∧ floorTempOf 10 (slot 0 (some 400) 0) (slot 0 (some 410) 0) = some 410
      ∧ floorTempOf 10 (slot 0 (some 400) 0) (slot 0 (some 410) 10) = some 400 := by decide

/-- R140: a CANCEL of length 1, one of length 3, and an undefined kind of length 3. -/
theorem test_lengths :
    LengthFits 0x09 [4] ∧ ¬LengthFits 0x09 [4, 1, 0] ∧ LengthFits 0x09 [9, 1, 0] ∧ ¬LengthFits 0x09 [9, 1]
      ∧ ¬LengthFits 0x20 [1, 2, 3] ∧ LengthFits 0x30 [] ∧ ¬LengthFits 0x08 [1, 0] := by
  simp [LengthFits]

/-! ### A small house -/

/-- A manager, a sensor and a room unit of zone 0 on ROOM; an actuator of zone 0 and the boiler interface on
PLANT. -/
def houseTables : Tables :=
  { Tables.default with
    nodes := ((((Tables.default.nodes.set 0 ⟨0x10, .room, .manager, none, false⟩).set 1
      ⟨0x21, .room, .sensor, some 0, true⟩).set 2 ⟨0x30, .room, .roomUnit, some 0, true⟩).set 3
      ⟨0x40, .plant, .actuator, some 0, false⟩).set 4 ⟨0x60, .plant, .boilerIf, none, false⟩
    zones := Tables.default.zones.set 0 { ZoneCfg.default with enabled := true, overrunPath := true } }

/-- The house in COMMISSION, after a reset. -/
def bench : State :=
  { State.reset with
    work := houseTables, store := houseTables
    pls := ⟨.sync, 0x5A, 0, 0, none, none, none⟩
    pco := { State.reset.pco with plantAvailable := false } }

/-- The zone of the house, regulating with both slots bound. -/
def houseZone : ZoneRt :=
  { ZoneRt.reset with
    reg := .normal, setpoint := 256, zoneTemp := some 250, demand := 300, integral := 100
    prevTemp := some 250, periodTimer := some 1, valveTarget := 30
    slot0 := ⟨some 1, some 250, none, false, some 0, true⟩
    slot1 := ⟨some 2, none, none, false, none, false⟩ }

/-- A node that is PRESENT, with the actuator fields given. -/
def presentNode (a : Actuator) : NodeRt := ⟨.present, 0, false, a⟩

/-- The house in RUN: every node present, the boiler interface proved, the demand period running. -/
def house : State :=
  { bench with
    mode := .run, storedMode := .run
    zones := bench.zones.set 0 houseZone
    nodes := ((((bench.nodes.set 0 (presentNode Actuator.reset)).set 1 (presentNode Actuator.reset)).set
      2 (presentNode Actuator.reset)).set 3 (presentNode Actuator.reset)).set 4
      (presentNode Actuator.reset)
    clock := ⟨600, true⟩
    pco := ⟨false, 0, .off, none, some 20, false, 0, 0, true⟩
    pls := ⟨.ok, 0x5A, 0, 3, none, some .ready, some 500⟩ }

/-- The house with the actuator's fields given. -/
def houseAct (a : Actuator) : State := house.setAct 3 a

/-- The actuator MOVING to 40 with its timer running and a pending target. -/
def movingAct (pending : Option Nat) : Actuator :=
  ⟨some 40, pending, some 0, .moving, some 180, none, some 0⟩

/-- The house with an answer window open. -/
def houseWindow (part : WindowPart) (judged : Bool) : State :=
  { house with pls := { house.pls with window := some ⟨part, 540, true, judged⟩ } }

/-- The house with a reply outstanding. -/
def houseReply (s : State) (phase : ReplyPhase) (fetch : Option FetchInfo) : State :=
  setOutstanding (some ⟨phase, 0x10, .room, 9, 0x07, .done, [], fetch⟩) s

/-- The house with a frame being sent, or held for retry. -/
def sending (x : Segment) (f : TxFrame) (held : Bool) (s : State) : State := setTx x (some ⟨f, held⟩) s

/-- A full own-frame queue. -/
def fullOwn : List OwnFrame := List.replicate 8 ⟨0, 0x7E, .rollCall 1⟩

/-- The next state of an outcome, if it is one. -/
def nextOf : Host.Outcome State Fault Refusal → Option State
  | .next t => some t
  | .fault _ => none
  | .refused _ => none

/-- The state a command leaves. -/
def after (c : Instr) (s : State) : State := (nextOf (exec c s)).getD s

/-! ### The machine as a whole -/

theorem witness_empty_queue : house.pending = [] := by decide +kernel

/-- The tables of the house lie in range. -/
theorem houseTables_inRange : houseTables.inRange := by
  refine ⟨?_, ?_, ?_, ?_, ?_, ?_⟩ <;> decide +kernel

theorem witness_config_sound : ConfigSound house ∧ ConfigSound bench :=
  ⟨⟨houseTables_inRange, houseTables_inRange⟩, ⟨houseTables_inRange, houseTables_inRange⟩⟩

theorem witness_nodes_sound : NodesSound house ∧ NodesSound bench := by
  refine ⟨⟨⟨?_, ?_⟩, ⟨?_, ?_⟩⟩, ⟨?_, ?_⟩, ⟨?_, ?_⟩⟩ <;> decide +kernel

/-- The house while a PLANT entry whose minimum on-time is not the store's is being committed. -/
def houseCommit (minOn : Nat) : State :=
  houseReply (house.setWork { houseTables with plant := { PlantCfg.default with minOn } })
    (.committing .plant) none

/-- No commit, a commit of PLANT, and a reply that waits. -/
theorem witness_commit_sound :
    CommitSound house ∧ CommitSound (houseCommit 7)
      ∧ CommitSound (houseReply (pushOwn .room ⟨0x10, 0x7E, .mgmtReply 9 7 .done []⟩ house) .placed none) := by
  have idle : committing house = none := by decide +kernel
  refine ⟨⟨by decide +kernel, fun _ => rfl, fun _ h => ?_, fun h => ?_⟩,
    ⟨by decide +kernel, fun h => ?_, fun item h => ?_, fun h => ?_⟩,
    ⟨by decide +kernel, fun _ => rfl, fun _ h => ?_, fun h => ?_⟩⟩
  · cases idle.symm.trans h
  · cases h
  · cases h
  · cases h
    intro other hne
    cases other <;> first | rfl | trivial
  · cases h
  · cases h
  · cases h

theorem witness_zone_and_queue_invariants :
    ZonesSound house ∧ QueuesSound house ∧ DriveSound house ∧ EventsSound house := by
  refine ⟨?_, ?_, ?_, ?_⟩ <;> decide +kernel

/-- Its zone temperature is the one fresh slot's, and the other zones are DISABLED. -/
theorem witness_regulation_sound : RegulationSound house := by
  have zones : ∀ z : ZoneIx,
      (house.zone z).zoneTemp
        = zoneTempOf (house.zoneCfg z).sensorTimeout (house.zone z).slot0 (house.zone z).slot1
      ∧ (house.zone z).floorTemp
        = floorTempOf (house.zoneCfg z).sensorTimeout (house.zone z).slot0 (house.zone z).slot1
      ∧ ((house.zone z).reg = .disabled ∨ (house.zone z).reg = .starting ∨ (house.zone z).reg = .windowOpen
        ∨ (house.zone z).reg = .floorHold → (house.zone z).demand = 0)
      ∧ (house.zone z).windowTimer = none
      ∧ ((house.zone z).reg = .disabled ↔ (house.zoneCfg z).enabled = false) := by decide +kernel
  refine ⟨fun z => ⟨?_, (zones z).2.2.1, fun n h => ?_⟩, fun _ z => (zones z).2.2.2.2⟩
  · rw [(zones z).1, (zones z).2.1]
    exact temps_are _ _ _
  · rw [(zones z).2.2.2.1] at h
    cases h

theorem witness_link_and_mode_invariants :
    NewcomersSound house ∧ LinkSound house ∧ CommissionSound house := by
  refine ⟨?_, ?_, ?_⟩ <;> decide +kernel

theorem witness_step_answers :
    (nextOf (step (house.setPending [.demandPeriodExpiry]))).isSome = true := by decide +kernel

theorem witness_invariants_commission :
    bench.mode = .commission ∧ DriveSound bench ∧ CommissionSound bench
      ∧ nextOf (step (bench.setPending [.commitEnd])) = some bench := by
  decide +kernel

theorem witness_store_and_mode :
    nextOf (exec .holidayEnd house) = some house ∧ Instr.holidayEnd.wf = true
      ∧ house.mrs.warmResetPending = false := by decide +kernel

/-- The actuator reports 50 percent and its zone asks for 300: the burner is released. -/
theorem witness_burner_released :
    let s := houseAct { Actuator.reset with confirmed := some 50 }
    s.pco.burnerOn = false ∧ (after .demandPeriodExpiry s).pco.burnerOn = true := by decide +kernel

theorem witness_entry_formats :
    houseTables.zones[0].inRange ∧ houseTables.plant.inRange
      ∧ profileSound [⟨0, 1⟩, ⟨1439, 7⟩] ∧ houseTables.nodes[3].used = true
      ∧ houseTables.nodes[3].address.toNat ≤ 0x7E := by decide +kernel

/-! ### Frames -/

/-- A malformed frame and a segment that is not receiving. -/
theorem witness_discarded :
    canReceive house .room = true ∧ wfMalformed [0, 0x21, 0x30, 33] = true
      ∧ canReceive (setHealth .room .stuck house) .room = false := by decide +kernel

theorem witness_dropped :
    canReceive house .room = true
      ∧ IsMalformed (mkFrame 0 0x00 0x08 [1, 0, 0]) ∧ IsMalformed (mkFrame 0x7F 0x21 0x08 [1, 0, 0])
      ∧ IsMalformed (mkFrame 0 0x21 0x40 []) ∧ IsMalformed (mkFrame 0 0x21 0x30 (List.replicate 33 0))
      ∧ IsMalformed { mkFrame 0 0x21 0x30 [] with chk := 0 } ∧ ¬IsMalformed (mkFrame 0x7E 0x7E 0x3F [])
      ∧ (mkFrame 0 0x7E 0x08 [1, 0, 0]).src = house.ownAddress := by decide +kernel

/-- Both modes, a full list in RUN among them. -/
theorem witness_unknown_source :
    Accepted .room (mkFrame 0x60 0x55 0x30 []) house ∧ findNode house 0x55 = none
      ∧ house.mode = .run
      ∧ Accepted .room (mkFrame 0x60 0x55 0x30 []) bench ∧ bench.mode = .commission
      ∧ (after (.foreignFrame .room 0x60 0x55 0x30 []) bench).newcomers = [0x55]
      ∧ (after (.foreignFrame .room 0x60 0x55 0x30 []) bench).plant.fwd.length = 1
      ∧ (after (.foreignFrame .room 0x60 0x55 0x30 [])
          { house with newcomers := [1, 2, 3, 4, 5, 6, 7, 8] }).newcomerOverflow = true := by
  decide +kernel

theorem witness_source_check :
    findNode house 0x21 = some 1 ∧ (house.nodeCfg 1).segment = .room
      ∧ Accepted .plant (mkFrame 0 0x21 0x30 []) house ∧ (house.nodeCfg 1).segment ≠ .plant
      ∧ Accepted .room (mkFrame 0 0x40 0x30 []) house ∧ findNode house 0x40 = some 3
      ∧ (house.nodeCfg 3).isActuator = true ∧ (house.node 3).presence = .present := by
  decide +kernel

theorem witness_foreign_frame :
    Admitted .room (mkFrame 0x60 0x21 0x30 [1, 2]) house ∧ ownRow 0x30 [1, 2] = false
      ∧ (after (.foreignFrame .room 0x60 0x21 0x30 [1, 2]) house).plant.fwd
        = [mkFrame 0x60 0x21 0x30 [1, 2]] := by decide +kernel

/-- A request to the boiler interface is forwarded and not executed. -/
theorem witness_request_elsewhere :
    let q : MgmtRequest := { request 0 0 [] with dst := 0x60 }
    requestOf (.readPlant q) = some (q, 0x05) ∧ Admitted q.seg (requestFrame q 0x05) house
      ∧ q.dst ≠ house.ownAddress
      ∧ (after (.readPlant q) house).plant.fwd = [requestFrame q 0x05]
      ∧ (after (.readPlant q) house).mrs.outstanding = none := by decide +kernel

/-- A TIME_SET and the end of a holiday change the setpoint to LEVEL 1's 256: the room unit is told. -/
theorem witness_evaluation_notice :
    let told := [(⟨0x30, 0x7E, .zoneNotice 0 256 .default (some 250)⟩ : OwnFrame)]
    let s := house.setZone 0 { houseZone with setpoint := 200 }
    (after (.timeSet .room 0 0x10 [0, 0]) s).room.own = told
      ∧ (after .holidayEnd (s.setHoliday ⟨true, 0, 60⟩)).room.own = told := by decide +kernel

/-- Week-minutes 10079 and 10080, from the manager; and one from a sensor in RUN. -/
theorem witness_time_set :
    Admitted .room (mkFrame 0 0x10 0x01 [0x27, 0x5F]) house
      ∧ Admitted .room (mkFrame 0 0x10 0x01 [0x27, 0x60]) house
      ∧ Admitted .room (mkFrame 0 0x21 0x01 [0, 0]) house
      ∧ isManager house (findNode house 0x10) = true ∧ isManager house (findNode house 0x21) = false
      ∧ (after (.timeSet .room 0 0x10 [0x27, 0x5F]) house).clock = ⟨10079, true⟩
      ∧ (after (.timeSet .room 0 0x10 [0x27, 0x60]) house).clock = house.clock := by decide +kernel

/-- Air values 1600 and 1601. -/
theorem witness_temp_report :
    Admitted .room (mkFrame 0 0x21 0x08 [0x06, 0x40, 0]) house
      ∧ Admitted .room (mkFrame 0 0x21 0x08 [0x06, 0x41, 0]) house
      ∧ ((after (.tempReport .room 0 0x21 [0x06, 0x40, 0]) house).zone 0).zoneTemp = some 1600
      ∧ ((after (.tempReport .room 0 0x21 [0x06, 0x41, 0]) house).zone 0).zoneTemp = some 250
      ∧ Admitted .room (mkFrame 0 0x55 0x08 [1, 0, 0]) bench ∧ findNode bench 0x55 = none := by
  decide +kernel

/-- TEMPORARY of 5 minutes is taken as 15, and the setpoint is limited to 480. -/
theorem witness_set_request :
    Admitted .room (mkFrame 0x7E 0x30 0x09 [1, 0x02, 0x00, 0, 5]) house ∧ findNode house 0x30 = some 2
      ∧ ((afterSource .room (mkFrame 0x7E 0x30 0x09 [1, 0x02, 0x00, 0, 5]) house).node 2).presence
        = .present
      ∧ (house.zoneCfg 0).enabled = true
      ∧ rdSetRequest [1, 0x02, 0x00, 0, 5] = some (.temporary 512 5)
      ∧ ((after (.setRequest .room 0x7E 0x30 [1, 0x02, 0x00, 0, 5]) house).zone 0).override
        = some ⟨.temporary 15, 480⟩ := by decide +kernel

theorem witness_set_request_forms :
    rdSetRequest [2, 1, 0] = some (.untilNext 256) ∧ rdSetRequest [3, 1, 0] = some (.permanent 256)
      ∧ rdSetRequest [4] = some .cancel ∧ rdSetRequest [5] = none
      ∧ Admitted .room (mkFrame 0x7E 0x30 0x09 [5]) house
      ∧ Admitted .room (mkFrame 0x7E 0x30 0x09 [4]) bench := by decide +kernel

theorem witness_valve_status_without_motion :
    Admitted .plant (mkFrame 0x7E 0x40 0x11 [130, 2]) house ∧ findNode house 0x40 = some 3
      ∧ ((afterSource .plant (mkFrame 0x7E 0x40 0x11 [130, 2]) house).node 3).presence = .present
      ∧ (house.node 3).act.motion ≠ .moving
      ∧ ((after (.valveStatus .plant 0x7E 0x40 [130, 2]) house).node 3).act.confirmed = some 100 := by
  decide +kernel

/-- A pending target of 45 is queued and issued from a position of 40; one of 44 is discarded. -/
theorem witness_valve_status_ends_motion :
    Admitted .plant (mkFrame 0x7E 0x40 0x11 [40, 2]) (houseAct (movingAct (some 45)))
      ∧ (3 : NodeIx) ∉ (houseAct (movingAct (some 45))).driveQueue.map DriveEntry.node
      ∧ rdReportedMotion 1 = some .moving ∧ rdReportedMotion 2 = some .atTarget
      ∧ rdReportedMotion 3 = some .blocked ∧ rdReportedMotion 4 = none
      ∧ ((after (.valveStatus .plant 0x7E 0x40 [40, 2]) (houseAct (movingAct (some 45)))).node 3).act.lastCmd
        = some 45
      ∧ ((after (.valveStatus .plant 0x7E 0x40 [40, 2]) (houseAct (movingAct (some 44)))).node 3).act.motion
        = .idle := by decide +kernel

/-- Question 0x5A, flow 540 (0x21C) and release: 0x5A, 0x1C and 0x80 give 0xC6. -/
theorem witness_boiler_answer :
    Admitted .plant (mkFrame 0x7E 0x60 0x15 [0x5A, 0xC6, 2, 2, 0]) (houseWindow .openPart false)
      ∧ findNode house 0x60 = some 4 ∧ rdStatus 2 = some .firing
      ∧ ((afterSource .plant (mkFrame 0x7E 0x60 0x15 [0x5A, 0xC6, 2, 2, 0])
          (houseWindow .openPart false)).node 4).presence = .present
      ∧ (after (.boilerAnswer .plant 0x7E 0x60 [0x5A, 0xC6, 2, 2, 0])
          (houseWindow .openPart false)).pls.question = 0xB4
      ∧ (after (.boilerAnswer .plant 0x7E 0x60 [0x5A, 0xC7, 2, 2, 0])
          (houseWindow .openPart false)).pls.errors = 1
      ∧ (after (.boilerAnswer .plant 0x7E 0x60 [0x5A, 0xC6, 2, 2, 0])
          (houseWindow .closedPart false)).pls.errors = 1
      ∧ Admitted .plant (mkFrame 0x7E 0x60 0x15 [0x5B, 0xC6, 2, 2, 0]) house := by decide +kernel

/-- Group 2 holds 0x21; the right role code is 1. -/
theorem witness_roll_answer :
    let s := setRoll .room ⟨3, 5, .window, some 2⟩ house
    Admitted .room (mkFrame 0x7E 0x21 0x03 [1]) s ∧ groupOf 0x21 = 2
      ∧ ((after (.rollAnswer .room 0x7E 0x21 [2]) s).node 1).presence = .mismatch .role
      ∧ ((after (.rollAnswer .room 0x7E 0x21 [1]) s).node 1).presence = .present := by decide +kernel

/-! ### Management -/

theorem witness_reads :
    Executed (request 7 0 []) 0x01 house ∧ (namedEntry 7 0).toOption = some .plant
      ∧ Executed (request 0 15 [1]) 0x04 house ∧ Executed (request 0 0 []) 0x05 house
      ∧ Executed (request 0 0 []) 0x08 house
      ∧ ownRoom (requestState (request 7 0 []) 0x01 house) .room = true
      ∧ (after (.readPlant (request 0 0 [])) house).room.own.length = 1 := by decide +kernel

/-- 11.6: READ_ZONE of zone 0 of the house, at week-minute 600, and READ_PLANT. -/
theorem test_runtime_records :
    zonePart0 house 0 = [2, 1, 0, 4, 0xFF, 0, 0, 0, 0, 0, 0, 0, 250, 0x80, 0, 1, 0x2C, 0, 100, 0, 250, 0, 1,
        2, 0x58, 1, 0, 0, 0]
      ∧ zonePart1 house 0 = [1, 0, 250, 0x80, 0, 1, 0, 2, 0x80, 0, 0x80, 0, 0, 0, 2, 0x58, 1, 0, 0, 0]
      ∧ plantBytes house
        = [1, 0, 0, 0, 0, 20, 2, 0, 0, 0, 0, 2, 0x5A, 0, 3, 0, 0, 0, 0, 1, 1, 0xF4] := by decide +kernel

/-- The house with a full OQ-R. -/
def houseFull : State := house.setSeg .room { house.room with own := fullOwn }

/-- Refused replies: the operation stands and no reply is outstanding (R170). -/
theorem witness_refused_replies :
    Executed (request 0 0 []) 0x05 houseFull
      ∧ NoResetAtRefusal (request 0 0 []) (requestState (request 0 0 []) 0x05 houseFull)
      ∧ (after (.readPlant (request 0 0 [])) houseFull).mrs.outstanding = none
      ∧ (after (.readPlant (request 0 0 [])) houseFull).room.own = fullOwn
      ∧ (after (.setHoliday (request 0 0 [7, 0, 1])) houseFull).holiday = ⟨true, 7, 1⟩
      ∧ (after (.setHoliday (request 0 0 [7, 0, 1])) houseFull).mrs.outstanding = none := by decide +kernel

theorem witness_clearing_requests :
    Executed (request 0 0 []) 0x06 house ∧ Executed (request 0 0 []) 0x09 house
      ∧ Executed (request 0 0 []) 0x0D house ∧ Executed (request 0 0 []) 0x07 house
      ∧ ownRoom (requestState (request 0 0 []) 0x0D house) .room = true
      ∧ (after (.warmReset (request 0 0 [])) house).mrs.warmResetPending = true := by decide +kernel

/-- Three records wait: the two oldest are carried. -/
theorem witness_fetch_events :
    let s := addEvent (.modeChanged .run) (addEvent (.plantFault .bad) (addEvent (.plantOk 4) house))
    Executed (request 0 0 []) 0x07 s ∧ s.mrs.events.length = 3
      ∧ ((after (.fetchEvents (request 0 0 [])) s).mrs.outstanding.bind Reply.fetch)
        = some ⟨2, false⟩ := by decide +kernel

theorem witness_holiday_and_cancel :
    Executed (request 0 0 [7, 0, 1]) 0x0B house ∧ Executed (request 0 0 [7, 0, 0]) 0x0B house
      ∧ ownRoom (evaluateAll ((requestState (request 0 0 [7, 0, 1]) 0x0B house).setHoliday
          ⟨true, 7, 1⟩)) .room = true
      ∧ ((after (.setHoliday (request 0 0 [7, 0, 1])) house).zone 0).source = .holiday
      ∧ Executed (request 0 0 []) 0x0C house
      ∧ ((after (.cancelOverride (request 0 0 []))
          (setOverride 0 (some ⟨.permanent, 300⟩) house)).zone 0).override = none := by decide +kernel

/-- A LEVEL at its limits 80 and 480, and the refusal of 481. -/
theorem witness_write_entry :
    Executed (request 4 2 [0, 80]) 0x02 house ∧ (namedEntry 4 2).toOption = some (.level 2)
      ∧ writeForbidden house (.level 2) [0, 80] = false
      ∧ (writeItem (.level 2) [0, 80] house).isSome = true
      ∧ (writeItem (.level 2) [1, 0xE0] house).isSome = true
      ∧ writeItem (.level 2) [1, 0xE1] house = none
      ∧ (after (.writeEntry (request 4 2 [0, 80])) house).work.levels[2] = 80
      ∧ (after (.writeEntry (request 4 2 [0, 80])) house).store.levels[2] = 304 := by decide +kernel

/-- An unused NODE entry, and a NONE reference that carries a target. -/
theorem witness_write_entry_forms :
    Executed (request 2 1 [0, 9, 9, 9, 9]) 0x02 bench
      ∧ writeForbidden bench (.node 1) [0, 9, 9, 9, 9] = false
      ∧ (after (.writeEntry (request 2 1 [0, 9, 9, 9, 9])) bench).nodeCfg 1 = NodeCfg.default
      ∧ Executed (request 6 3 [0, 9]) 0x02 house
      ∧ (after (.writeEntry (request 6 3 [0, 9])) house).mrs.outstanding.isSome = true
      ∧ (after (.writeEntry (request 6 3 [0, 9])) house).work.links[3] = .noRef := by decide +kernel

/-- New limits of zone 0, its other fields as they were: the setpoint follows, and so does a notice. -/
theorem witness_zone_write :
    let d := zoneCfgBytes { house.zoneCfg 0 with minLimit := 320 }
    Executed (request 3 0 d) 0x02 house ∧ writeForbidden house (.zone 0) d = false
      ∧ (writeItem (.zone 0) d house).isSome = true
      ∧ ((after (.writeEntry (request 3 0 d)) house).zone 0).setpoint = 320
      ∧ (after (.writeEntry (request 3 0 d)) house).room.own.length = 1 := by decide +kernel

theorem witness_clear_entry :
    Executed (request 4 2 []) 0x03 house ∧ clearForbidden house (.level 2) = false
      ∧ (clearItem (.level 2) house).isSome = true
      ∧ Executed (request 2 1 []) 0x03 bench ∧ clearForbidden bench (.node 1) = false := by
  decide +kernel

theorem witness_accepted_write_effects :
    (house.nodeCfg 3).moved ⟨0x41, .plant, .actuator, some 0, false⟩ = true
      ∧ (house.nodeCfg 4).moved NodeCfg.default = true
      ∧ hasBoiler (applyNode 4 NodeCfg.default bench) ≠ hasBoiler bench
      ∧ (house.nodeCfg 1).moved ⟨0x21, .room, .sensor, some 0, false⟩ = false
      ∧ (house.zoneCfg 0).sensorTimeout ≠ 2 := by decide +kernel

/-- SYSTEM in RUN, a table of no name, index 48 of NODE, index 16 of READ_ZONE, data that is no mode. -/
theorem witness_refused_requests :
    Executed (request 1 0 [0x7E, 5]) 0x02 house
      ∧ refusalOf (request 1 0 [0x7E, 5]) 0x02 house = some .wrongMode
      ∧ refusalOf (request 9 0 []) 0x01 house = some .badTable
      ∧ refusalOf (request 2 48 []) 0x01 house = some .badIndex
      ∧ refusalOf (request 0 16 [0]) 0x04 house = some .badIndex
      ∧ refusalOf (request 0 0 [2]) 0x0A house = some .badValue
      ∧ ownRoom (requestState (request 1 0 [0x7E, 5]) 0x02 house) .room = true := by decide +kernel

/-- In RUN: intake alone may change of a NODE entry, and a clear only find it unused; nor may a ZONE's
enabled bit change, nor the seed. -/
theorem witness_forbidden_in_run :
    let node := fun c => refusalOf (request 2 1 (nodeCfgBytes c)) 0x02 house
    let zone := fun c => refusalOf (request 3 0 (zoneCfgBytes c)) 0x02 house
    let plant := fun c => refusalOf (request 7 0 (plantCfgBytes c)) 0x02 house
    node ⟨0x21, .room, .sensor, some 0, false⟩ = none
      ∧ node ⟨0x21, .room, .sensor, some 1, true⟩ = some .wrongMode
      ∧ node NodeCfg.default = some .wrongMode
      ∧ refusalOf (request 2 1 []) 0x03 house = some .wrongMode ∧ refusalOf (request 2 9 []) 0x03 house = none
      ∧ zone { house.zoneCfg 0 with enabled := false } = some .wrongMode
      ∧ zone { house.zoneCfg 0 with overrunPath := false } = some .wrongMode
      ∧ zone { house.zoneCfg 0 with minLimit := 100 } = none
      ∧ refusalOf (request 3 0 []) 0x03 house = some .wrongMode ∧ refusalOf (request 3 1 []) 0x03 house = none
      ∧ plant { PlantCfg.default with seed := 1 } = some .wrongMode
      ∧ plant { PlantCfg.default with polynomial := .polyB } = some .wrongMode
      ∧ plant { PlantCfg.default with minOn := 7 } = none := by decide +kernel

/-- Wrong lengths in both modes, and in COMMISSION an address that another entry has, the part's own, and
0x7F. -/
theorem witness_bad_values :
    let node := fun (a : Byte) => refusalOf (request 2 9 [a, 0, 1, 0, 1]) 0x02 bench
    refusalOf (request 2 1 [0x21, 0, 1, 0]) 0x02 house = some .badValue
      ∧ refusalOf (request 3 0 [0]) 0x02 bench = some .badValue
      ∧ refusalOf (request 7 0 []) 0x02 house = some .badValue
      ∧ node 0x21 = some .badValue ∧ node 0x7E = some .badValue ∧ node 0x7F = some .badValue
      ∧ node 0x22 = none := by decide +kernel

theorem witness_denied_and_bad_operation :
    let q : MgmtRequest := ⟨.room, 0x7E, 0x21, 9, 0, 0, []⟩
    Admitted .room (requestFrame q 0x05) house ∧ isManager house (findNode house 0x21) = false
      ∧ ownRoom (requestState q 0x05 house) .room = true
      ∧ noOperation 0x0E = true ∧ noOperation 0x00 = true ∧ Executed (request 0 0 []) 0x0E house := by
  decide +kernel

theorem witness_dropped_requests :
    Admitted .room (requestFrame (request 0 0 []) 0x05) (houseReply house .placed none)
      ∧ (houseReply house .placed none).mrs.outstanding.isSome = true
      ∧ ownRoom (house.setSeg .room { house.room with own := fullOwn }) .room = false := by
  decide +kernel

theorem witness_set_mode_run :
    Executed (request 0 0 [1]) 0x0A bench ∧ configCheck bench.work = none
      ∧ (after (.setModeRun (request 0 0 [1])) bench).mode = .run
      ∧ (let s := bench.setWork { houseTables with nodes := houseTables.nodes.set 3 NodeCfg.default }
        Executed (request 0 0 [1]) 0x0A s ∧ configCheck s.work = some ⟨4, .zone 0⟩)
      ∧ Executed (request 0 0 [1]) 0x0A house := by decide +kernel

theorem witness_set_mode_commission :
    Executed (request 0 0 [0]) 0x0A house ∧ findBoiler house = some 4 ∧ ownRoom house .plant = true
      ∧ (after (.setModeCommission (request 0 0 [0])) house).mode = .commission
      ∧ Executed (request 0 0 [0]) 0x0A bench := by decide +kernel

theorem witness_commit_end :
    let full := (houseCommit 7).setSeg .room houseFull.room
    committing (houseCommit 7) = some .plant ∧ ownRoom (houseCommit 7) .room = true
      ∧ (after .commitEnd (houseCommit 7)).store.plant.minOn = 7 ∧ committing house = none
      ∧ committing (houseReply house .placed none) = none
      ∧ committing full = some .plant ∧ full.mrs.warmResetPending = false
      ∧ (after .commitEnd full).store.plant.minOn = 7
      ∧ (after .commitEnd full).mrs.outstanding = none := by decide +kernel

/-! ### The bus -/

theorem witness_transmit_start :
    house.room.health = .up ∧ house.room.tx = none
      ∧ (house.setSeg .room { house.room with own := fullOwn }).room.own.head?
        = some ⟨0, 0x7E, .rollCall 1⟩
      ∧ (house.setSeg .room { house.room with fwd := [mkFrame 0 0x60 0x30 []] }).room.fwd.head?
        = some (mkFrame 0 0x60 0x30 [])
      ∧ (sending .room (.own ⟨0, 0x7E, .rollCall 1⟩) true house).room.tx
        = some ⟨.own ⟨0, 0x7E, .rollCall 1⟩, true⟩ := by decide +kernel

/-- The destination byte 0x00 has its first recessive bit at the stop bit, bit 9. -/
theorem witness_lost_arbitration :
    (TxFrame.own ⟨0, 0x7E, .rollCall 1⟩).frame.lineBits[9]? = some true
      ∧ (TxFrame.own ⟨0, 0x7E, .rollCall 1⟩).frame.lineBits[8]? = some false
      ∧ (after (.lostArbitration .room 9)
          (sending .room (.own ⟨0, 0x7E, .rollCall 1⟩) false house)).room.tx
        = some ⟨.own ⟨0, 0x7E, .rollCall 1⟩, true⟩ := by decide +kernel

theorem witness_transmission_complete :
    (sending .plant (.forwarded (mkFrame 0 0x21 0x30 [])) false house).plant.tx
        = some ⟨.forwarded (mkFrame 0 0x21 0x30 []), false⟩
      ∧ ((after (.transmissionComplete .plant) (sending .plant (.own ⟨0x40, 0x7E, .valveCmd 3 0 40⟩) false
          (houseAct { movingAct none with timer := none }))).node 3).act.timer = some 180
      ∧ (after (.transmissionComplete .plant) (sending .plant
          (.own ⟨0x60, 0x7E, .boilerDemand 540 true true 0x5A⟩) false house)).pls.window
        = some ⟨.closedPart, 540, true, false⟩
      ∧ (after (.transmissionComplete .room) (sending .room (.own ⟨0, 0x7E, .rollCall 2⟩) false
          (setRoll .room ⟨3, 5, .calling, some 2⟩ house))).room.roll.phase = .window
      ∧ house.mrs.warmResetPending = false := by decide +kernel

/-- One error below the threshold, an unjudged window is ended by the next demand: PLANT_FAULT, MISSED. So it
is when an expiry finds PLANT STUCK. -/
theorem witness_missed_fault :
    let w := houseWindow .closedPart false
    let s := { w with pls := { w.pls with errors := w.work.plant.faultThreshold - 1 } }
    let demand := sending .plant (.own ⟨0x60, 0x7E, .boilerDemand 540 true true 0x5A⟩) false s
    (after (.transmissionComplete .plant) demand).mrs = (addEvent (.plantFault .missed) demand).mrs
      ∧ (after .demandPeriodExpiry (setHealth .plant .stuck s)).mrs
        = (addEvent (.plantFault .missed) s).mrs := by decide +kernel

theorem witness_reply_completes :
    let s := sending .room (.own ⟨0x10, 0x7E, .mgmtReply 9 7 .done []⟩) false
      (houseReply (addEvent (.plantOk 4) house) .placed (some ⟨1, true⟩))
    (s.mrs.outstanding.bind Reply.fetch) = some ⟨1, true⟩
      ∧ (after (.transmissionComplete .room) s).mrs.attn = false
      ∧ (houseReply house .placed none).mrs.outstanding.bind Reply.fetch = none := by decide +kernel

theorem witness_supply_lost :
    house.plant.health ≠ .noSupply ∧ (setHealth .plant .noSupply house).plant.health = .noSupply
      ∧ ((after (.segmentNoSupply .plant) (houseAct { movingAct none with timer := none })).node 3).act.lastCmd
        = none := by decide +kernel

/-- Sixteen records and a FETCH_EVENTS reply that the loss of supply abandons: the reply is over when
SEGMENT_DOWN is lost, so the late-overflow marker stays clear (R135, R178). -/
def fetching : State :=
  pushOwn .room ⟨0x10, 0x7E, .mgmtReply 9 0x07 .done []⟩
    (houseReply (house.setMrs { house.mrs with
      events := List.replicate 16 ⟨.plantOk 4, none⟩, attn := true }) .placed (some ⟨2, false⟩))

theorem witness_event_after_abandonment :
    let t := after (.segmentNoSupply .room) fetching
    fetching.mrs.events.length = 16 ∧ fetching.mrs.fetching = true ∧ t.mrs.outstanding = none
      ∧ t.mrs.eventOverflow = true ∧ t.mrs.lateOverflow = false
      ∧ (after (.segmentNoSupply .plant) fetching).mrs.lateOverflow = true := by decide +kernel

theorem witness_reply_fetched : ReplyHeld fetching .room :=
  ⟨⟨0x10, 0x7E, .mgmtReply 9 0x07 .done []⟩, .inr List.mem_cons_self, 9, 0x07, .done, [], rfl⟩

/-- A ROLL_CALL that is being sent is abandoned, and ends the roll call. -/
theorem witness_roll_call_held :
    let s := sending .room (.own ⟨0, 0x7E, .rollCall 2⟩) false (setRoll .room ⟨3, 5, .calling, some 2⟩ house)
    RollCallHeld s .room ∧ (after (.segmentNoSupply .room) s).room.roll.phase = .idle :=
  ⟨⟨⟨0, 0x7E, .rollCall 2⟩, .inl ⟨⟨.own ⟨0, 0x7E, .rollCall 2⟩, false⟩, rfl, rfl⟩, 2, rfl⟩, by decide +kernel⟩

/-- PLANT loses its supply while a warm reset waits for the reply on ROOM: the part goes on. -/
theorem witness_supply_lost_elsewhere :
    let s := (houseReply (pushOwn .room ⟨0x10, 0x7E, .mgmtReply 9 0x0D .done []⟩ house) .placed none)
    let s := s.setMrs { s.mrs with warmResetPending := true }
    s.mrs.outstanding.isSome = true ∧ s.plant.own = [] ∧ s.plant.tx = none
      ∧ (after (.segmentNoSupply .plant) s).mrs.warmResetPending = true
      ∧ (after (.segmentNoSupply .plant) s).mode = .run
      ∧ (after (.segmentNoSupply .plant) s).room.own.length = 1 := by decide +kernel

theorem witness_stuck_and_up :
    house.room.health = .up ∧ transmitting house .room = false
      ∧ transmitting (sending .room (.own ⟨0, 0x7E, .rollCall 1⟩) false house) .room = true
      ∧ (setHealth .plant .stuck house).plant.health ≠ .up := by decide +kernel

/-- PLANT is UP again: the queued target is issued. -/
theorem witness_issue_resumes :
    let s := setHealth .plant .stuck ((houseAct { Actuator.reset with motion := .queued }).setDrive [⟨3, 60⟩])
    let t := after (.segmentHealthUp .plant) s
    s.plant.health ≠ .up ∧ t.driveQueue = [] ∧ (t.node 3).act.motion = .moving
      ∧ t.plant.own = [⟨0x40, 0x7E, .valveCmd 3 0 60⟩] := by decide +kernel

/-! ### Time -/

/-- The last minute of the week, in the first and the last order of the blocks. -/
theorem test_minute_tick_wraps :
    let s := { house with clock := ⟨10079, true⟩ }
    (after (.minuteTick ⟨0, 0, 0⟩) s).clock = ⟨0, true⟩
      ∧ (after (.minuteTick ⟨3, 2, 1⟩) s).clock = ⟨0, true⟩ := by decide +kernel

/-- A TEMPORARY override at its last minute and one at two. -/
theorem witness_minute_tick_override :
    ((setOverride 0 (some ⟨.temporary 1, 300⟩) house).zone 0).override = some ⟨.temporary 1, 300⟩
      ∧ ((after (.minuteTick ⟨0, 0, 0⟩) (setOverride 0 (some ⟨.temporary 1, 300⟩) house)).zone 0).override
        = none
      ∧ ((after (.minuteTick ⟨0, 0, 0⟩) (setOverride 0 (some ⟨.temporary 2, 300⟩) house)).zone 0).override
        = some ⟨.temporary 1, 300⟩ := by decide +kernel

/-- A tick at which the zone's period is over and the overrun timer ends. -/
theorem witness_minute_tick_events :
    let s := house.setPco { house.pco with overrunTimer := some 1 }
    let t := after (.minuteTick ⟨3, 2, 1⟩) s
    (t.zone 0).demand = 296 ∧ (t.zone 0).periodTimer = some 1 ∧ t.pco.overrunTimer = none := by
  decide +kernel

/-- R28: four links are followed, a fifth is not. -/
theorem test_links_followed :
    let chain := fun r => { houseTables with
      links := (((houseTables.links.set 0 (.linked 1)).set 1 (.linked 2)).set 2 (.linked 3)).set 3 r
      profiles := houseTables.profiles.set 0 [⟨0, 5⟩] }
    resolve (chain (.direct 0)) ⟨600, true⟩ (.linked 0) = .level 5
      ∧ resolve (chain (.linked 4)) ⟨600, true⟩ (.linked 0) = .fault .chainTooDeep := by decide +kernel

theorem witness_holiday_and_override_end :
    (house.setHoliday ⟨true, 0, 60⟩).holiday.active = true ∧ house.holiday.active = false
      ∧ isTemporary ((setOverride 0 (some ⟨.temporary 60, 300⟩) house).zone 0).override = true
      ∧ isTemporary (house.zone 0).override = false := by decide +kernel

theorem witness_counts_run_out :
    (houseWindow .openPart false).pls.window = some ⟨.openPart, 540, true, false⟩
      ∧ (after .answerWindowClose (houseWindow .openPart false)).pls.errors = 1
      ∧ (after .answerWindowClose (houseWindow .openPart true)).pls.errors = 0
      ∧ (houseWindow .closedPart false).pls.window.all (fun w => w.part == .closedPart) = true
      ∧ house.pls.window = none := by decide +kernel

/-- An error of 6 with Pb at 32 gives P = 187; the moving-free house integrates 187 / 20 = 9. -/
theorem witness_regulation_event :
    (house.zone 0).periodTimer.isSome = true ∧ eventTemp (house.zoneCfg 0) (house.zone 0) = some 250
      ∧ newRegState (house.zoneCfg 0) 0 (house.zone 0) = .normal
      ∧ ((after (.regulationEvent 0) house).zone 0).demand = 296
      ∧ ((after (.regulationEvent 0) house).zone 0).integral = 109
      ∧ (house.zone 1).periodTimer = none := by decide +kernel

/-- R72: an actuator of the zone that moves holds the integral. -/
theorem witness_integration_held :
    ActuatorMoves (houseAct (movingAct none)) 0 ∧ ¬ActuatorMoves house 0
      ∧ workingTemp (house.zoneCfg 0) (house.zone 0) = some 250
      ∧ ((after (.regulationEvent 0) (houseAct (movingAct none))).zone 0).integral = 100 := by decide +kernel

/-- R65: a limit of 432 is entered at 432 and left at 416. -/
theorem witness_regulation_states :
    let c := { house.zoneCfg 0 with floorLimit := some 432 }
    let v := fun r t => { houseZone with reg := r, floorTemp := some t }
    newRegState c 0 (v .normal 432) = .floorHold ∧ newRegState c 0 (v .normal 431) = .normal
      ∧ newRegState c 0 (v .floorHold 417) = .floorHold ∧ newRegState c 0 (v .floorHold 416) = .normal
      ∧ eventTemp c (v .normal 432) = some 250
      ∧ newRegState { c with windowDetection := true } 0
          { v .normal 400 with prevTemp := some 274 } = .windowOpen
      ∧ eventTemp c { houseZone with slot0 := Slot.unbound } = none := by decide +kernel

/-- The setpoint above the minimum limit, and at it. -/
theorem witness_blind_demand :
    let lost := fun sp => house.setZone 0 { houseZone with slot0 := Slot.unbound, setpoint := sp }
    newRegState (house.zoneCfg 0) 0 ((lost 81).zone 0) = .sensorLost
      ∧ ((after (.regulationEvent 0) (lost 81)).zone 0).demand = 300
      ∧ ((after (.regulationEvent 0) (lost 80)).zone 0).demand = 0 := by decide +kernel

theorem witness_motion_timeout :
    ((houseAct (movingAct none)).node 3).act.motion = .moving
      ∧ (3 : NodeIx) ∉ (houseAct (movingAct none)).driveQueue.map DriveEntry.node
      ∧ ((after (.motionTimeout 3) (houseAct (movingAct none))).node 3).act.fault = some .noCompletion
      ∧ (house.node 3).act.timer = none := by decide +kernel

/-- The house with a second actuator of zone 0, at entry 5, whose target 70 waits in the Drive Queue. -/
def twoValves (a : Actuator) : State :=
  let s := (houseAct a).setWork { houseTables with
    nodes := houseTables.nodes.set 5 ⟨0x41, .plant, .actuator, some 0, false⟩
    plant := { PlantCfg.default with driveLimit := 1 } }
  (s.setNode 5 (presentNode { Actuator.reset with motion := .queued })).setDrive [⟨5, 70⟩]

/-- The slot that the timeout, the stop, the departure or the third miss of entry 3 frees is taken by
entry 5. -/
theorem witness_freed_slot :
    let s := twoValves (movingAct none)
    let issued := [⟨0x41, 0x7E, .valveCmd 5 0 70⟩]
    mayIssue s = false ∧ (after (.motionTimeout 3) s).plant.own = issued
      ∧ (after (.valveStatus .plant 0x7E 0x40 [20, 3]) s).plant.own = issued
      ∧ (after (.foreignFrame .room 0 0x40 0x30 []) s).plant.own = issued
      ∧ (let r := setRoll .plant ⟨5, 5, .window, some 4⟩ (s.setNode 3 { s.node 3 with missCount := 2 })
        (after (.rollWindowClose .plant) r).plant.own = issued
          ∧ ((after (.rollWindowClose .plant) r).node 3).presence = .absent) := by decide +kernel

/-- A pending target of 80 that passes joins the tail of the Drive Queue, behind entry 5's. -/
theorem witness_pending_target :
    let t := after (.valveStatus .plant 0x7E 0x40 [40, 2]) (twoValves (movingAct (some 80)))
    t.driveQueue = [⟨3, 80⟩] ∧ t.plant.own = [⟨0x41, 0x7E, .valveCmd 5 0 70⟩]
      ∧ (t.node 3).act.motion = .queued := by decide +kernel

/-- An ABSENT actuator of a disabled zone is heard again: it is given its zone's target at once. -/
theorem witness_join_disabled_zone :
    let s := (house.setWork { houseTables with zones := Tables.default.zones }).setNode 3
      { NodeRt.reset with presence := .absent, missCount := 3 }
    (afterSource .plant (mkFrame 0 0x40 0x30 []) s).plant.own = [⟨0x40, 0x7E, .valveCmd 3 0 30⟩]
      ∧ findNode s 0x40 = some 3 ∧ (s.zoneCfg 0).enabled = false := by decide +kernel

/-- The burner at an open demand of 150, the threshold, and of 149; and a stop with the path closed. -/
theorem witness_demand_period :
    let s := fun d => (houseAct { Actuator.reset with confirmed := some 25 }).setZone 0
      { houseZone with demand := d }
    (s 150).pco.demandTimer.isSome = true
      ∧ (after .demandPeriodExpiry (s 150)).pco.burnerOn = true
      ∧ (after .demandPeriodExpiry (s 149)).pco.burnerOn = false
      ∧ flowPath house = false
      ∧ (after .demandPeriodExpiry (house.setPco { house.pco with burnerOn := true })).pco.burnerOn = false
      ∧ findBoiler house = some 4 ∧ (s 150).plant.own.length < 8
      ∧ (after .demandPeriodExpiry (setHealth .plant .stuck house)).pls.errors = 1
      ∧ bench.pco.demandTimer = none := by decide +kernel

theorem witness_overrun_end :
    let s := house.setPco { house.pco with pump := .overrun, overrunTimer := some 1 }
    s.pco.overrunTimer.isSome = true ∧ (after .overrunEnd s).pco.pump = .off
      ∧ house.pco.overrunTimer = none := by decide +kernel

/-- Held at 50 by the overrun, the actuator is sent its zone's 30 when the overrun ends. -/
theorem witness_overrun_end_targets :
    let s := (houseAct { Actuator.reset with lastCmd := some 50 }).setPco
      { house.pco with pump := .overrun, overrunTimer := some 1 }
    ((after .overrunEnd s).node 3).act.lastCmd = some 30
      ∧ (after .overrunEnd s).plant.own = [⟨0x40, 0x7E, .valveCmd 3 0 30⟩] := by decide +kernel

/-- Group 1 is the next from group 0; a third miss makes the sensor of group 2 ABSENT. -/
theorem witness_roll_call :
    GroupNext house .room 1 ∧ house.room.roll.phase = .idle ∧ house.room.health ≠ .noSupply
      ∧ house.room.own.length < 8 ∧ (after (.rollCallExpiry .room) house).room.roll.group = some 1
      ∧ GroupNext (setRoll .room ⟨4, 5, .idle, none⟩ house) .room 1
      ∧ (∀ g i, ¬GroupHolds State.reset .room g i) ∧ GroupHolds house .room 2 1
      ∧ (let s := setRoll .room ⟨3, 5, .window, some 2⟩
          (house.setNode 1 { house.node 1 with missCount := 2 })
        s.room.roll.phase = .window ∧ inGroup s .room 2 1 = true
          ∧ ((after (.rollWindowClose .room) s).node 1).presence = .absent
          ∧ ((after (.rollWindowClose .room) (setRoll .room ⟨3, 5, .window, some 2⟩ house)).node 1).missCount
            = 1) := by decide +kernel

theorem witness_resets :
    let s := houseCommit 7
    committing s = some .plant ∧ (after (.coldReset true false true) s).work.plant.minOn = 7
      ∧ (after (.coldReset true false false) s).work.plant.minOn = 5
      ∧ (after (.coldReset true false true) s).plant.health = .noSupply
      ∧ (house.setMrs { house.mrs with warmResetPending := true }).mrs.warmResetPending = true
      ∧ (after .warmResetEffect (house.setMrs { house.mrs with warmResetPending := true })).clock
        = ⟨600, true⟩ := by decide +kernel

/-- The DONE reply to a WARM_RESET. -/
def resetReply : OwnFrame := ⟨0x10, 0x7E, .mgmtReply 9 0x0D .done []⟩

/-- The house with a warm reset pending behind its reply. -/
def resetting : State :=
  let s := houseReply house .placed none
  s.setMrs { s.mrs with warmResetPending := true }

theorem witness_warm_reset_completion :
    let s := sending .room (.own resetReply) false resetting
    s.mrs.warmResetPending = true ∧ s.room.health = .up
      ∧ (after (.transmissionComplete .room) s).mrs.warmResetPending = false
      ∧ (after (.transmissionComplete .room) s).zone 0 ≠ s.zone 0 := by decide +kernel

/-- The reply still waits when the segment loses its supply. -/
theorem witness_reply_held :
    ReplyHeld (pushOwn .room resetReply resetting) .room
      ∧ ReplyHeld (sending .room (.own resetReply) true resetting) .room :=
  ⟨⟨resetReply, .inr List.mem_cons_self, 9, 0x0D, .done, [], rfl⟩,
    ⟨resetReply, .inl ⟨⟨.own resetReply, true⟩, rfl, rfl⟩, 9, 0x0D, .done, [], rfl⟩⟩

theorem witness_warm_reset_abandonment :
    let s := pushOwn .room resetReply resetting
    s.mrs.warmResetPending = true ∧ s.room.health ≠ .noSupply
      ∧ (after (.segmentNoSupply .room) s).mrs.warmResetPending = false
      ∧ (after (.segmentNoSupply .room) s).room.health = .noSupply := by decide +kernel

theorem witness_warm_reset_refusal :
    Executed (request 0 0 []) 0x0D houseFull
      ∧ ownRoom (requestState (request 0 0 []) 0x0D houseFull) .room = false
      ∧ (after (.warmReset (request 0 0 [])) houseFull).room.own = [] := by decide +kernel

end Sys2Proof.Tests
end

section
/-! SUPPORT. Expiries of counts and the regulation event of a zone: what the answer window's close, a
charge and a regulation event do, said once, and the statements on them (O48, O49, O51). -/

namespace Sys2Proof.Machine.ZoneRegulation

open Sys2Proof Sys2Proof.Machine

/-! ### Whole records from a frame -/

theorem zoneRt_eq_of_parts {v w : ZoneRt} (hres : v.resolverPart = w.resolverPart)
    (hreg : v.regulatorPart = w.regulatorPart) (htarget : v.valveTarget = w.valveTarget) : v = w := by
  cases v
  cases w
  simp_all [ZoneRt.resolverPart, ZoneRt.regulatorPart]

/-- The three owners' parts of a zone record are all of it (R8, R82). -/
theorem zone_eq_of_keeps {l : List Field} {s t : State} (h : Keeps l s t) (hset : .setpoints ∉ l)
    (hreg : .regulation ∉ l) (htarget : .valveTargets ∉ l) (z : ZoneIx) : t.zone z = s.zone z :=
  zoneRt_eq_of_parts (h .setpoints hset z) (h .regulation hreg z) (h .valveTargets htarget z)

theorem mrs_eq_of_keeps {l : List Field} {s t : State} (h : Keeps l s t) (hout : .outstanding ∉ l)
    (hwarm : .warmResetPending ∉ l) (hev : .events ∉ l) : t.mrs = s.mrs := by
  obtain ⟨hevents, hoverflow, hlate, hattn⟩ := h .events hev
  have hreply : t.mrs.outstanding = s.mrs.outstanding := h .outstanding hout
  have hpending : t.mrs.warmResetPending = s.mrs.warmResetPending := h .warmResetPending hwarm
  revert hevents hoverflow hlate hattn hreply hpending
  cases t.mrs
  cases s.mrs
  simp_all

/-! ### Charges and the close of the answer window (R124, R129, R130) -/

theorem charge_of_threshold (f : LinkFault) {s : State} (h : s.pls.plantState = .ok
    ∧ min (s.pls.errors + 1) s.work.plant.faultThreshold = s.work.plant.faultThreshold) :
    charge f s = addEvent (.plantFault f)
      (setLink { chargedCounts s.work.plant.faultThreshold s.pls with
        plantState := .fault, status := none, actualFlow := none } s) :=
  if_pos h

theorem charge_below_threshold (f : LinkFault) {s : State} (h : ¬(s.pls.plantState = .ok
    ∧ min (s.pls.errors + 1) s.work.plant.faultThreshold = s.work.plant.faultThreshold)) :
    charge f s = setLink (chargedCounts s.work.plant.faultThreshold s.pls) s :=
  if_neg h

theorem charge_window (f : LinkFault) (s : State) : (charge f s).pls.window = s.pls.window := by
  by_cases h : s.pls.plantState = .ok
      ∧ min (s.pls.errors + 1) s.work.plant.faultThreshold = s.work.plant.faultThreshold
  · rw [charge_of_threshold f h, addEvent_pls]
    rfl
  · rw [charge_below_threshold f h]
    rfl

/-- A charge raises PLANT_FAULT exactly when it moves the plant state from OK to FAULT (R131), stamped by
the clock and queued with the events of any state s that agrees with t on both. -/
theorem charge_mrs (f : LinkFault) {s t : State} (hmrs : t.mrs = s.mrs) (hclock : t.clock = s.clock) :
    (charge f t).mrs = (if t.pls.plantState = .ok ∧ (charge f t).pls.plantState = .fault then
      addEvent (.plantFault f) s else s).mrs := by
  by_cases h : t.pls.plantState = .ok
      ∧ min (t.pls.errors + 1) t.work.plant.faultThreshold = t.work.plant.faultThreshold
  · rw [charge_of_threshold f h, addEvent_pls, if_pos ⟨h.1, rfl⟩]
    exact addEvent_mrs_congr _ hmrs hclock
  · rw [charge_below_threshold f h, if_neg]
    · exact hmrs
    · rintro ⟨hok, hfault⟩
      exact absurd (hok.symm.trans hfault) (by decide)

theorem closeWindow_judged {w : Window} (s : State) (h : w.judged = true) :
    closeWindow w s = s.setPls { s.pls with window := none } := if_pos h

theorem closeWindow_unjudged {w : Window} (s : State) (h : w.judged = false) :
    closeWindow w s = charge .missed (s.setPls { s.pls with window := none }) := by
  simp [closeWindow, h]

theorem closeWindow_window (w : Window) (s : State) : (closeWindow w s).pls.window = none := by
  cases h : w.judged
  · rw [closeWindow_unjudged s h, charge_window]
    rfl
  · rw [closeWindow_judged s h]
    rfl

/-- A window that ends unjudged is charged MISSED on the standing before its end (R124, R129, R131). -/
theorem closeWindow_missed {w : Window} (s : State) (h : w.judged = false) :
    ChargedFrom s.work.plant.faultThreshold s.pls (closeWindow w s).pls
      ∧ (closeWindow w s).mrs
        = (if s.pls.plantState = .ok ∧ (closeWindow w s).pls.plantState = .fault then
            addEvent (.plantFault .missed) s else s).mrs
      ∧ FlagRefreshed s (closeWindow w s) := by
  rw [closeWindow_unjudged s h]
  obtain ⟨hcharged, hflag⟩ := charge_spec .missed (s.setPls { s.pls with window := none })
  exact ⟨hcharged, charge_mrs .missed rfl rfl, hflag⟩

/-! ### The commands of counts that run out -/

theorem windowTimerRunOut_effect (z : ZoneIx) (s : State) : ∃ t, exec (.windowTimerRunOut z) s = .next t
    ∧ t.zone z = { s.zone z with windowTimer := none } ∧ (∀ y, y ≠ z → t.zone y = s.zone y)
    ∧ Keeps [.regulation] s t :=
  ⟨_, rfl, s.setZone_zone_self z _, fun _ hy => s.setZone_zone_ne _ hy,
    setZone_keeps_regulation z { s.zone z with windowTimer := none } s rfl rfl⟩

theorem exec_answerWindowOpenPart {s : State} {w : Window} (h : s.pls.window = some w) :
    exec .answerWindowOpenPart s
      = .next (s.setPls { s.pls with window := some { w with part := .openPart } }) := by
  show execAnswerWindowOpenPart s = _
  simp [execAnswerWindowOpenPart, h, openPart]

theorem exec_answerWindowOpenPart_none {s : State} (h : s.pls.window = none) :
    exec .answerWindowOpenPart s = .next s := by
  show Host.Outcome.next (s.setPls { s.pls with window := s.pls.window.map openPart }) = .next s
  rw [h, Option.map_none, ← h]
  rfl

theorem exec_answerWindowClose {s : State} {w : Window} (h : s.pls.window = some w)
    (hopen : w.part = .openPart) : exec .answerWindowClose s = .next (closeWindow w s) := by
  show execAnswerWindowClose s = _
  simp [execAnswerWindowClose, h, hopen]

/-- Without a window in its open part ANSWER_WINDOW_CLOSE does nothing (log 24). -/
theorem exec_answerWindowClose_idle {s : State}
    (h : s.pls.window.all (fun w => w.part == .closedPart) = true) :
    exec .answerWindowClose s = .next s := by
  show execAnswerWindowClose s = _
  cases hw : s.pls.window with
  | none => simp [execAnswerWindowClose, hw]
  | some w =>
    have hclosed : w.part = .closedPart := by simpa [hw] using h
    simp [execAnswerWindowClose, hw, hclosed]

/-! ### The new state and the output of a regulation event (R60, R62 to R65, R71 to R75) -/

theorem floorState_ne_sensorLost (c : ZoneCfg) (v : ZoneRt) : floorState c v ≠ .sensorLost := by
  unfold floorState
  split
  · split
    · split <;> decide
    · split <;> decide
  · decide

/-- A zone with a fresh slot does not become SENSOR_LOST (R63 to R65). -/
theorem freshState_ne_sensorLost (c : ZoneCfg) (v : ZoneRt) (temp : T16) :
    freshState c v temp ≠ .sensorLost := by
  unfold freshState
  split
  · decide
  · split
    · decide
    · exact floorState_ne_sensorLost c v
  · split
    · decide
    · exact floorState_ne_sensorLost c v
  all_goals exact floorState_ne_sensorLost c v

/-- Only a zone without a fresh slot becomes SENSOR_LOST (R62). -/
theorem eventTemp_of_sensorLost {c : ZoneCfg} {age : Nat} {v : ZoneRt}
    (h : newRegState c age v = .sensorLost) : eventTemp c v = none := by
  cases ht : eventTemp c v with
  | none => rfl
  | some temp =>
    simp only [newRegState, ht] at h
    exact absurd h (freshState_ne_sensorLost c v temp)

theorem integralBefore_of_stale {c : ZoneCfg} {v : ZoneRt} (h : eventTemp c v = none) :
    integralBefore c v = v.integral := by
  simp [integralBefore, h]

theorem eventOutput_disabled (s : State) (z : ZoneIx) : eventOutput s z .disabled = (0, 0) := rfl

/-- The states that hold the demand at 0 keep the integral as the event finds it (R60, R63). -/
theorem eventOutput_idle (s : State) (z : ZoneIx) {r : RegState}
    (h : r = .starting ∨ r = .windowOpen ∨ r = .floorHold) :
    eventOutput s z r = (0, integralBefore (s.zoneCfg z) (s.zone z)) := by
  rcases h with rfl | rfl | rfl <;> rfl

theorem eventOutput_sensorLost (s : State) (z : ZoneIx) :
    eventOutput s z .sensorLost = (blindDemandOf (s.zoneCfg z) (s.zone z).setpoint,
      integralBefore (s.zoneCfg z) (s.zone z)) := rfl

theorem clamp_nonneg {hi : Int} (h : 0 ≤ hi) (x : Int) : 0 ≤ clamp 0 hi x := by
  unfold clamp
  split
  · exact Int.le_refl 0
  · split <;> omega

theorem normalDemand_cast (p : Int) (i : Nat) : (normalDemand p i : Int) = clamp 0 1000 (p + i) :=
  Int.toNat_of_nonneg (clamp_nonneg (by decide) _)

theorem newIntegral_cast (ti : Nat) (p : Int) (held : Bool) (i : Nat) :
    (newIntegral ti p held i : Int) = if ti = 0 then 0 else if 0 < p ∧ held = true then (i : Int)
      else clamp 0 1000 (i + Int.tdiv p ti) := by
  unfold newIntegral
  split
  · rfl
  split
  · rfl
  · exact Int.toNat_of_nonneg (clamp_nonneg (by decide) _)

theorem integrationHeld_iff (s : State) (z : ZoneIx) : integrationHeld s z = true ↔
    s.pco.plantAvailable = false ∨ ActuatorMoves s z ∨ (s.zone z).demand = 1000 := by
  rw [actuatorMoves_iff]
  simp [integrationHeld, or_assoc]

/-- R71 to R74: demand and integral of an event in NORMAL. -/
theorem eventOutput_normal (s : State) (z : ZoneIx) {temp : T16}
    (h : eventTemp (s.zoneCfg z) (s.zone z) = some temp) :
    let c := s.zoneCfg z
    let p := clamp (-1000) 1000 (Int.tdiv (((s.zone z).setpoint - temp) * 1000) c.pb)
    let held := s.pco.plantAvailable = false ∨ ActuatorMoves s z ∨ (s.zone z).demand = 1000
    let out := eventOutput s z .normal
    (out.2 : Int) = (if c.ti = 0 then 0
        else if 0 < p ∧ held then (integralBefore c (s.zone z) : Int)
        else clamp 0 1000 (integralBefore c (s.zone z) + Int.tdiv p c.ti))
      ∧ (out.1 : Int) = clamp 0 1000 (p + out.2) := by
  simp only [eventOutput, h, newIntegral_cast, normalDemand_cast, integrationHeld_iff, proportional,
    and_self]

/-! ### The regulation event as a whole (R56, R59, R77, R78, R83) -/

/-- What the scheduler does after a hand-over to it comes after the changes before that hand-over as well. -/
theorem thenValves_after {l m : List Field} {r : State → State → Prop} {s u t : State}
    (h : Keeps l s u) (hl : l ⊆ m) (k : ThenValves m r u t) : ThenValves m r s t := by
  obtain ⟨v, huv, hvt, hr⟩ := k
  exact ⟨v, (h.mono hl).trans huv, hvt, hr⟩

/-- A hand-over changes the zone's valve target, and then the targets of its actuators are derived
(R77, R83). -/
theorem handOverTarget_derived (z : ZoneIx) (target : Nat) (s : State) {m : List Field}
    (hm : [.valveTargets] ⊆ m) :
    ThenValves m (TargetsDerived (fun y => y = z)) s (handOverTarget z target s) :=
  ⟨s.setZone z { s.zone z with valveTarget := target },
    (setZone_keeps_targets z { s.zone z with valveTarget := target } s rfl rfl).mono hm,
    deriveWhere_keeps _ _, deriveWhere_derived _ _ _ (fun _ => beq_iff_eq)⟩

theorem handOverTarget_zone (z y : ZoneIx) (target : Nat) (s : State) :
    (handOverTarget z target s).zone y
      = if y = z then { s.zone z with valveTarget := target } else s.zone y := by
  unfold handOverTarget
  rw [zone_eq_of_keeps (deriveWhere_keeps _ _) (by simp) (by simp) (by simp), State.setZone_zone]

theorem handOverTarget_mrs (z : ZoneIx) (target : Nat) (s : State) :
    (handOverTarget z target s).mrs = s.mrs :=
  mrs_eq_of_keeps (handOverTarget_keeps z target s) (by simp) (by simp) (by simp)

theorem sensorEvents_zone (z y : ZoneIx) (timeout : Nat) (v : ZoneRt) (r : RegState) (s : State) :
    (sensorEvents z timeout v r s).zone y = s.zone y :=
  zone_eq_of_keeps (sensorEvents_keeps z timeout v r s) (by simp) (by simp) (by simp) y

/-- The record that the regulation event leaves in its zone (R60, R64, R66, R74, R76). -/
def regulatedZone (z : ZoneIx) (s : State) : ZoneRt :=
  let c := s.zoneCfg z
  let v := s.zone z
  let r := newRegState c s.runEntryAge v
  { v with
    reg := r
    demand := (eventOutput s z r).1
    integral := (eventOutput s z r).2
    windowTimer := newWindowTimer c v r
    prevTemp := eventTemp c v
    valveTarget := valveTargetOf (eventOutput s z r).1 }

theorem regulatedZone_output {z : ZoneIx} {s : State} {r : RegState}
    (h : newRegState (s.zoneCfg z) s.runEntryAge (s.zone z) = r) :
    (regulatedZone z s).demand = (eventOutput s z r).1
      ∧ (regulatedZone z s).integral = (eventOutput s z r).2 := by
  subst h
  exact ⟨rfl, rfl⟩

theorem regulate_zone (z y : ZoneIx) (s : State) :
    (regulate z s).zone y = if y = z then regulatedZone z s else s.zone y := by
  unfold regulate
  rw [handOverTarget_zone, sensorEvents_zone, sensorEvents_zone, State.setZone_zone_self]
  split
  · rfl
  · next h => exact s.setZone_zone_ne _ h

/-- What the sensor events of a transition make of the responder (R78). -/
theorem sensorEvents_mrs (z : ZoneIx) (timeout : Nat) (v : ZoneRt) (r : RegState) {s t : State}
    (hmrs : t.mrs = s.mrs) (hclock : t.clock = s.clock) :
    (sensorEvents z timeout v r t).mrs
      = (if r = .sensorLost ∧ v.reg ≠ .sensorLost then addEvent (.sensorLost z v.reg) s
          else if v.reg = .sensorLost ∧ r ≠ .sensorLost then
            addEvent (.sensorBack z (if IsFresh timeout v.slot0 then 0 else 1)) s
          else s).mrs := by
  simp only [sensorEvents, lowerFreshSlot, isFresh_iff, apply_ite State.mrs,
    addEvent_mrs_congr _ hmrs hclock, hmrs]

/-- The targets are derived in the state in which the zone is computed and V handed over (R59, R83). -/
theorem regulate_thenValves (z : ZoneIx) (s : State) :
    ThenValves [.regulation, .valveTargets, .events] (TargetsDerived (fun y => y = z)) s (regulate z s) :=
  thenValves_after
    (setZone_keeps_regulation z
      { regulatedZone z s with valveTarget := (s.zone z).valveTarget } s rfl rfl) (by simp)
    (thenValves_after (sensorEvents_keeps z _ _ _ _) (by simp) (handOverTarget_derived z _ _ (by simp)))

/-- The state with the period timer of a zone re-armed (R56). -/
def rearmed (z : ZoneIx) (s : State) : State :=
  s.setZone z { s.zone z with periodTimer := some (s.zoneCfg z).period }

theorem rearmed_keeps (z : ZoneIx) (s : State) : Keeps [.regulation] s (rearmed z s) :=
  setZone_keeps_regulation z { s.zone z with periodTimer := some (s.zoneCfg z).period } s rfl rfl

/-- The event of a re-armed zone computes what it would before, for no rule of it reads the period timer. -/
theorem regulatedZone_rearmed (z : ZoneIx) (s : State) : regulatedZone z (rearmed z s)
    = { regulatedZone z s with periodTimer := some (s.zoneCfg z).period } := by
  have hv : (rearmed z s).zone z = { s.zone z with periodTimer := some (s.zoneCfg z).period } :=
    s.setZone_zone_self z _
  have hout : ∀ r, eventOutput (rearmed z s) z r = eventOutput s z r := by
    intro r
    simp only [eventOutput, integrationHeld, hv]
    rfl
  simp only [regulatedZone, hout, hv]
  rfl

theorem periodExpired_eq (z : ZoneIx) (s : State) : periodExpired z s = regulate z (rearmed z s) := rfl

theorem periodExpired_zone (z y : ZoneIx) (s : State) : (periodExpired z s).zone y
    = if y = z then { regulatedZone z s with periodTimer := some (s.zoneCfg z).period } else s.zone y := by
  rw [periodExpired_eq, regulate_zone, regulatedZone_rearmed]
  split
  · rfl
  · next h => exact s.setZone_zone_ne _ h

theorem periodExpired_zone_self (z : ZoneIx) (s : State) : (periodExpired z s).zone z
    = { regulatedZone z s with periodTimer := some (s.zoneCfg z).period } := by
  rw [periodExpired_zone, if_pos rfl]

theorem periodExpired_zone_ne {z y : ZoneIx} (s : State) (h : y ≠ z) :
    (periodExpired z s).zone y = s.zone y := by
  rw [periodExpired_zone, if_neg h]

/-- The sensor events of a regulation event, by the zone's state before it (R78). -/
theorem periodExpired_mrs (z : ZoneIx) (s : State) :
    let c := s.zoneCfg z
    let v := s.zone z
    let r := newRegState c s.runEntryAge v
    (periodExpired z s).mrs
      = (if r = .sensorLost ∧ v.reg ≠ .sensorLost then addEvent (.sensorLost z v.reg) s
          else if v.reg = .sensorLost ∧ r ≠ .sensorLost then
            addEvent (.sensorBack z (if IsFresh c.sensorTimeout v.slot0 then 0 else 1)) s
          else s).mrs := by
  have hv : (rearmed z s).zone z = { s.zone z with periodTimer := some (s.zoneCfg z).period } :=
    s.setZone_zone_self z _
  rw [periodExpired_eq]
  unfold regulate
  rw [handOverTarget_mrs, hv]
  exact sensorEvents_mrs z _ _ _ rfl rfl

theorem periodExpired_thenValves (z : ZoneIx) (s : State) :
    ThenValves [.regulation, .valveTargets, .events] (TargetsDerived (fun y => y = z)) s
      (periodExpired z s) :=
  thenValves_after (rearmed_keeps z s) (by simp) (regulate_thenValves z (rearmed z s))

theorem exec_regulationEvent {z : ZoneIx} {s : State} (h : (s.zone z).periodTimer.isSome = true) :
    exec (.regulationEvent z) s = .next (periodExpired z s) :=
  congrArg Host.Outcome.next (if_pos h)

theorem exec_regulationEvent_stopped {z : ZoneIx} {s : State} (h : (s.zone z).periodTimer = none) :
    exec (.regulationEvent z) s = .next s :=
  congrArg Host.Outcome.next (if_neg (by simp [h]))

/-! ### The statements -/

/-- Settles O48: each expiry's effect, and the answer window's close by its judged flag. -/
theorem countsRunOut : Obligations.CountsRunOut := by
  intro s
  refine ⟨fun z => windowTimerRunOut_effect z s, ⟨_, rfl, rfl, setPco_keeps _ s⟩, fun w hw => ⟨?_, ?_⟩,
    exec_answerWindowClose_idle, exec_answerWindowOpenPart_none⟩
  · exact ⟨_, exec_answerWindowOpenPart hw, rfl, setPls_keeps _ s⟩
  · intro hopen
    refine ⟨closeWindow w s, exec_answerWindowClose hw hopen, closeWindow_window w s, fun hjudged => ?_,
      fun hjudged => ?_⟩
    · rw [closeWindow_judged s hjudged]
      exact ⟨rfl, setPls_keeps _ s⟩
    · obtain ⟨hcharged, hevents, hflag⟩ := closeWindow_missed s hjudged
      exact ⟨hcharged, hevents, hflag, closeWindow_keeps w s⟩

/-- Settles O49: the event is the re-armed zone's computation, and the scheduler's work comes after it. -/
theorem regulationEvent : Obligations.RegulationEvent := by
  intro z s c v r warm i
  have hwarm : warm = eventTemp c v := workingTemp_eq c v
  have hi : i = integralBefore c v := by simp only [i, integralBefore, hwarm]
  refine ⟨fun hrun => ⟨periodExpired z s, exec_regulationEvent hrun, ?_⟩, exec_regulationEvent_stopped⟩
  rw [periodExpired_zone_self, hwarm, hi]
  refine ⟨rfl, rfl, rfl, rfl, rfl, ?disabled, ?idle, ?normal, rfl, rfl, rfl, rfl, rfl,
    periodExpired_mrs z s, fun y hy => periodExpired_zone_ne s hy, periodExpired_thenValves z s,
    (periodExpired_keeps z s).mono (by simp [issueFields])⟩
  case disabled =>
    intro hr
    obtain ⟨hdemand, hintegral⟩ := regulatedZone_output hr
    rw [eventOutput_disabled] at hdemand hintegral
    exact ⟨hdemand, hintegral⟩
  case idle =>
    intro hr
    obtain ⟨hdemand, hintegral⟩ := regulatedZone_output (z := z) (s := s) rfl
    rw [eventOutput_idle s z hr] at hdemand hintegral
    exact ⟨hdemand, hintegral⟩
  case normal =>
    intro temp htemp hr
    obtain ⟨hdemand, hintegral⟩ := regulatedZone_output hr
    dsimp only
    rw [hdemand, hintegral]
    exact eventOutput_normal s z htemp

/-- Settles O51: only a zone without a fresh slot becomes SENSOR_LOST, so its integral is not set to 0. -/
theorem blindDemandWhenSensorLost : Obligations.BlindDemandWhenSensorLost := by
  intro z s hrun hlost
  obtain ⟨hdemand, hintegral⟩ := regulatedZone_output hlost
  rw [eventOutput_sensorLost] at hdemand hintegral
  refine ⟨periodExpired z s, exec_regulationEvent hrun, ?_⟩
  rw [periodExpired_zone_self]
  refine ⟨fun habove => ?_, fun hequal => ?_, ?_⟩
  · exact hdemand.trans (if_pos habove)
  · exact hdemand.trans (if_neg (by rw [hequal]; exact Int.lt_irrefl _))
  · exact hintegral.trans (integralBefore_of_stale (eventTemp_of_sensorLost hlost))

end Sys2Proof.Machine.ZoneRegulation
end

section
/-! SUPPORT. The question register and the expected answer of the Plant Link Supervisor: one step as
arithmetic, the cycle of its values, and the statements on them (O59, O60). -/

namespace Sys2Proof.Machine.QuestionRegister

open Sys2Proof Sys2Proof.Machine

/-! ### One step as arithmetic (R121) -/

theorem toNat_boolByte (b : Bool) : (boolByte b).toNat = if b = true then 1 else 0 := by
  cases b <;> rfl

/-- The doubled register has bit 0 clear, where the feedback bit goes. -/
theorem doubled_and_boolByte (q : Byte) (b : Bool) : (q <<< 1) &&& boolByte b = 0#8 := by
  apply BitVec.eq_of_getLsbD_eq
  intro i hi
  cases b
  · simp [boolByte]
  · by_cases h : i = 0 <;> simp [boolByte, BitVec.getLsbD_one, h]

theorem stepQuestion_eq_add (p : Polynomial) (q : Byte) :
    stepQuestion p q = q <<< 1 + boolByte (feedback p q) :=
  (BitVec.add_eq_or_of_and_eq_zero _ _ (doubled_and_boolByte q _)).symm

theorem stepQuestion_toNat (p : Polynomial) (q : Byte) :
    (stepQuestion p q).toNat = (2 * q.toNat) % 256 + (if feedback p q = true then 1 else 0) := by
  have hq := q.isLt
  rw [stepQuestion_eq_add, BitVec.toNat_add, BitVec.toNat_shiftLeft, toNat_boolByte, Nat.shiftLeft_eq]
  split <;> omega

theorem stepQuestion_zero (p : Polynomial) : stepQuestion p 0#8 = 0#8 := by
  cases p <;> rfl

theorem stepQuestion_highBit (p : Polynomial) : stepQuestion p 0x80#8 = 0x01#8 := by
  cases p <;> rfl

/-! ### Runs of steps (R121) -/

theorem repeat_add {α : Type} (f : α → α) (m n : Nat) (a : α) :
    Nat.repeat f (m + n) a = Nat.repeat f m (Nat.repeat f n a) := by
  induction m with
  | zero => rw [Nat.zero_add]; rfl
  | succ m ih => rw [Nat.succ_add]; exact congrArg f ih

theorem repeat_comm {α : Type} (f : α → α) (m n : Nat) (a : α) :
    Nat.repeat f m (Nat.repeat f n a) = Nat.repeat f n (Nat.repeat f m a) := by
  rw [← repeat_add, ← repeat_add, Nat.add_comm]

theorem repeat_zero (p : Polynomial) (n : Nat) : Nat.repeat (stepQuestion p) n 0#8 = 0#8 := by
  induction n with
  | zero => rfl
  | succ n ih => exact (congrArg (stepQuestion p) ih).trans (stepQuestion_zero p)

/-- The first n values of the register from q on. -/
def values (p : Polynomial) : Nat → Byte → List Byte
  | 0, _ => []
  | n + 1, q => q :: values p n (stepQuestion p q)

theorem mem_values {p : Polynomial} {n : Nat} {q r : Byte} :
    r ∈ values p n q ↔ ∃ k, k < n ∧ Nat.repeat (stepQuestion p) k q = r := by
  induction n generalizing q with
  | zero => simp [values]
  | succ n ih =>
    have hshift : ∀ k, Nat.repeat (stepQuestion p) k (stepQuestion p q)
        = Nat.repeat (stepQuestion p) (k + 1) q := fun k => (repeat_add _ k 1 q).symm
    rw [values, List.mem_cons, ih]
    constructor
    · rintro (rfl | ⟨k, hk, hr⟩)
      · exact ⟨0, Nat.succ_pos n, rfl⟩
      · exact ⟨k + 1, Nat.succ_lt_succ hk, (hshift k).symm.trans hr⟩
    · rintro ⟨k, hk, hr⟩
      cases k with
      | zero => exact .inl hr.symm
      | succ k => exact .inr ⟨k, Nat.lt_of_succ_lt_succ hk, (hshift k).trans hr⟩

/-! ### The cycle of 0x01 -/

theorem step_255_one (p : Polynomial) : Nat.repeat (stepQuestion p) 255 1#8 = 1#8 := by
  cases p <;> decide +kernel

theorem one_notMem_values (p : Polynomial) : 1#8 ∉ values p 254 (stepQuestion p 1#8) := by
  cases p <;> decide +kernel

theorem step_shorter_one (p : Polynomial) {n : Nat} (hpos : 0 < n) (hlt : n < 255) :
    Nat.repeat (stepQuestion p) n 1#8 ≠ 1#8 := by
  intro h
  refine one_notMem_values p (mem_values.mpr ⟨n - 1, by omega, ?_⟩)
  have hsplit := repeat_add (stepQuestion p) (n - 1) 1 1#8
  rw [Nat.sub_add_cancel hpos, h] at hsplit
  exact hsplit.symm

/-- A byte that 0x01 reaches returns no earlier than 0x01 does: going on to 0x01 would bring that back. -/
theorem step_shorter_reached (p : Polynomial) {k n : Nat} (hk : k ≤ 255) (hpos : 0 < n) (hlt : n < 255) :
    Nat.repeat (stepQuestion p) n (Nat.repeat (stepQuestion p) k 1#8)
      ≠ Nat.repeat (stepQuestion p) k 1#8 := by
  intro hreturn
  have hround : Nat.repeat (stepQuestion p) (255 - k) (Nat.repeat (stepQuestion p) k 1#8) = 1#8 := by
    rw [← repeat_add, Nat.sub_add_cancel hk, step_255_one]
  apply step_shorter_one p hpos hlt
  calc Nat.repeat (stepQuestion p) n 1#8
      = Nat.repeat (stepQuestion p) n
          (Nat.repeat (stepQuestion p) (255 - k) (Nat.repeat (stepQuestion p) k 1#8)) := by rw [hround]
    _ = Nat.repeat (stepQuestion p) (255 - k)
          (Nat.repeat (stepQuestion p) n (Nat.repeat (stepQuestion p) k 1#8)) := repeat_comm _ _ _ _
    _ = 1#8 := by rw [hreturn, hround]

theorem values_nodup (p : Polynomial) {k n : Nat} (h : n + k ≤ 255) :
    (values p n (Nat.repeat (stepQuestion p) k 1#8)).Nodup := by
  induction n generalizing k with
  | zero => exact List.nodup_nil
  | succ n ih =>
    refine List.nodup_cons.mpr ⟨fun hmem => ?_, ih (k := k + 1) (by omega)⟩
    obtain ⟨j, hj, hreturn⟩ := mem_values.mp hmem
    refine step_shorter_reached p (k := k) (n := j + 1) (by omega) (Nat.succ_pos j) (by omega) ?_
    exact (repeat_add _ j 1 _).trans hreturn

theorem values_length (p : Polynomial) (n : Nat) (q : Byte) : (values p n q).length = n := by
  induction n generalizing q with
  | zero => rfl
  | succ n ih => exact congrArg Nat.succ (ih _)

/-- No number of steps brings a byte that returns to 0x00, where the register would stay. -/
theorem repeat_ne_zero {p : Polynomial} {q : Byte} (hq : q ≠ 0#8)
    (hreturn : Nat.repeat (stepQuestion p) 255 q = q) {n : Nat} (hn : n ≤ 255) :
    Nat.repeat (stepQuestion p) n q ≠ 0#8 := by
  intro hzero
  apply hq
  calc q = Nat.repeat (stepQuestion p) (255 - n + n) q := by rw [Nat.sub_add_cancel hn, hreturn]
    _ = Nat.repeat (stepQuestion p) (255 - n) 0#8 := by rw [repeat_add, hzero]
    _ = 0#8 := repeat_zero p _

theorem zero_notMem_values (p : Polynomial) : 0#8 ∉ values p 255 1#8 := by
  intro hmem
  obtain ⟨k, hk, hzero⟩ := mem_values.mp hmem
  exact repeat_ne_zero (by decide) (step_255_one p) (Nat.le_of_lt hk) hzero

/-! ### The cycle of every other byte -/

theorem nodup_bytes_length {l : List Byte} (h : l.Nodup) : l.length ≤ 256 := by
  have hsub : l ⊆ (List.finRange 256).map BitVec.ofFin := fun q _ =>
    List.mem_map.mpr ⟨q.toFin, List.mem_finRange _, rfl⟩
  simpa using h.length_le_of_subset hsub

/-- The cycle of 0x01 has 255 different bytes and not 0x00, so a further one would be the 257th byte. -/
theorem mem_values_one (p : Polynomial) {q : Byte} (hq : q ≠ 0#8) : q ∈ values p 255 1#8 := by
  apply Decidable.byContradiction
  intro hout
  have hnodup : (0#8 :: q :: values p 255 1#8).Nodup := by
    have hcycle : (values p 255 1#8).Nodup := values_nodup p (k := 0) (Nat.le_refl _)
    refine List.nodup_cons.mpr ⟨?_, List.nodup_cons.mpr ⟨hout, hcycle⟩⟩
    intro hmem
    rcases List.mem_cons.mp hmem with hzero | hzero
    · exact hq hzero.symm
    · exact zero_notMem_values p hzero
  have hlength := nodup_bytes_length hnodup
  rw [List.length_cons, List.length_cons, values_length] at hlength
  omega

theorem exists_repeat_one (p : Polynomial) {q : Byte} (hq : q ≠ 0#8) :
    ∃ k, k < 255 ∧ Nat.repeat (stepQuestion p) k 1#8 = q :=
  mem_values.mp (mem_values_one p hq)

theorem step_255 (p : Polynomial) {q : Byte} (hq : q ≠ 0#8) :
    Nat.repeat (stepQuestion p) 255 q = q := by
  obtain ⟨k, -, rfl⟩ := exists_repeat_one p hq
  rw [repeat_comm, step_255_one]

theorem step_shorter (p : Polynomial) {q : Byte} (hq : q ≠ 0#8) {n : Nat} (hpos : 0 < n)
    (hlt : n < 255) : Nat.repeat (stepQuestion p) n q ≠ q := by
  obtain ⟨k, hk, rfl⟩ := exists_repeat_one p hq
  exact step_shorter_reached p (Nat.le_of_lt hk) hpos hlt

/-- Settles O60: every nonzero byte lies on the one cycle of length 255, which never meets 0x00. -/
theorem questionRegisterSteps : Obligations.QuestionRegisterSteps := by
  intro p q
  refine ⟨stepQuestion_toNat p q, by cases p <;> rfl, stepQuestion_highBit p, fun hq => ?_⟩
  refine ⟨fun n => ⟨repeat_ne_zero hq (step_255 p hq) (Nat.le_of_lt n.isLt), fun hpos => ?_⟩,
    step_255 p hq⟩
  exact step_shorter p hq hpos n.isLt

/-! ### The expected answer (R122) -/

theorem expectedAnswer_toNat (q : Byte) (flow : T16) (release : Bool) :
    (expectedAnswer q flow release).toNat
      = (q.toNat ^^^ (flow % 256).toNat) ^^^ (if release = true then 0x80 else 0) := by
  unfold expectedAnswer
  rw [BitVec.toNat_xor, BitVec.toNat_xor, BitVec.toNat_ofInt, apply_ite BitVec.toNat]
  rfl

/-- Without flow target and release the boiler gives the question back. -/
theorem expectedAnswer_at_rest (q : Byte) : expectedAnswer q 0 false = q := by
  simp [expectedAnswer]

/-- Settles O59: the bytes' exclusive-or, read as numbers. -/
theorem expectedAnswer : Obligations.ExpectedAnswer := by
  intro s w
  refine ⟨expectedAnswer_toNat _ _ _, fun hflow hrelease => ?_⟩
  rw [hflow, hrelease]
  exact expectedAnswer_at_rest _

end Sys2Proof.Machine.QuestionRegister
end

section
/-! SUPPORT. The judgement of BOILER_ANSWER: the way of an admitted frame to its block, what the supervisor
makes of an answer, said once per judgement, and the statement on it (O26). -/

namespace Sys2Proof.Machine.AnswerJudgement

open Sys2Proof Sys2Proof.Machine Sys2Proof.Machine.ZoneRegulation

/-! ### An admitted frame on its way to its block (R139, R141 to R144) -/

/-- The state the hand-off finds: the source check and the forwarding are done. -/
def atHandOff (x : Segment) (f : Frame) (s : State) : State := forward x f (afterSource x f s)

theorem receive_admitted_known {x : Segment} {f : Frame} {s : State} {i : NodeIx} (h : Admitted x f s)
    (hi : findNode s f.src = some i) : receive x f s = handOffKnown x i f (atHandOff x f s) := by
  obtain ⟨haccepted, hpasses⟩ := h
  refine receive_known haccepted hi ?_
  simpa [sourcePasses, hi] using hpasses

theorem receive_admitted_unknown {x : Segment} {f : Frame} {s : State} (h : Admitted x f s)
    (hi : findNode s f.src = none) : receive x f s = handOffUnknown x f (atHandOff x f s) := by
  obtain ⟨haccepted, hpasses⟩ := h
  have hmode : s.mode = .commission := by simpa [sourcePasses, hi] using hpasses
  rw [receive_unknown haccepted hi, hmode]
  rfl

theorem atHandOff_keeps (x : Segment) (f : Frame) (s : State) :
    Keeps (copyFields x) (afterSource x f s) (atHandOff x f s) :=
  forward_keeps x f _

theorem atHandOff_copied (x : Segment) (f : Frame) (s : State) :
    Copied x f (afterSource x f s) (atHandOff x f s) :=
  forward_copied x f _

theorem atHandOff_work (x : Segment) (f : Frame) (s : State) : (atHandOff x f s).work = s.work :=
  (atHandOff_keeps x f s .work (by simp [copyFields])).trans (afterSource_keeps x f s .work (by simp))

theorem atHandOff_pls (x : Segment) (f : Frame) (s : State) : (atHandOff x f s).pls = s.pls :=
  (atHandOff_keeps x f s .pls (by simp [copyFields])).trans (afterSource_keeps x f s .pls (by simp))

theorem atHandOff_pco (x : Segment) (f : Frame) (s : State) :
    (atHandOff x f s).pco = (afterSource x f s).pco :=
  atHandOff_keeps x f s .pco (by simp [copyFields])

theorem atHandOff_clock (x : Segment) (f : Frame) (s : State) :
    (atHandOff x f s).clock = (afterSource x f s).clock :=
  atHandOff_keeps x f s .clock (by simp [copyFields])

theorem atHandOff_mrs (x : Segment) (f : Frame) (s : State) :
    (atHandOff x f s).mrs = (afterSource x f s).mrs :=
  mrs_eq_of_keeps (atHandOff_keeps x f s) (by simp [copyFields]) (by simp [copyFields])
    (by simp [copyFields])

theorem atHandOff_presence (x : Segment) (f : Frame) (s : State) (i : NodeIx) :
    ((atHandOff x f s).node i).presence = ((afterSource x f s).node i).presence :=
  congrArg PresencePart.presence (atHandOff_keeps x f s .presence (by simp [copyFields]) i)

theorem atHandOff_nodeCfg (x : Segment) (f : Frame) (s : State) (i : NodeIx) :
    (atHandOff x f s).nodeCfg i = s.nodeCfg i :=
  congrArg (fun w : Tables => w.nodes[i]) (atHandOff_work x f s)

/-- What comes after the copy leaves it in its queue. -/
theorem copied_of_keeps {l : List Field} {x : Segment} {f : Frame} {h u t : State} (hu : Copied x f h u)
    (k : Keeps l u t) (hfwd : .fwd (otherSegment x) ∉ l) (hover : .fwdOverflow (otherSegment x) ∉ l) :
    Copied x f h t := by
  have efwd : (t.seg (otherSegment x)).fwd = (u.seg (otherSegment x)).fwd := k _ hfwd
  have eover : (t.seg (otherSegment x)).fwdOverflow = (u.seg (otherSegment x)).fwdOverflow := k _ hover
  unfold Copied
  rw [efwd, eover]
  exact hu

/-! ### Which answers are considered (R125, R143) -/

theorem handOffKnown_boilerAnswer {x : Segment} {dst src : Byte} {payload : List Byte} {i : NodeIx}
    {u : State} (h : (u.nodeCfg i).role = .boilerIf) :
    handOffKnown x i (mkFrame dst src 0x15#8 payload) u = boilerAnswer i payload u := by
  have hk : rdKind 0x15#8 = .boilerAnswer := rfl
  simp [handOffKnown, mkFrame, hk, h]

theorem handOffKnown_boilerAnswer_other {x : Segment} {dst src : Byte} {payload : List Byte} {i : NodeIx}
    {u : State} (h : (u.nodeCfg i).role ≠ .boilerIf) :
    handOffKnown x i (mkFrame dst src 0x15#8 payload) u = u := by
  have hk : rdKind 0x15#8 = .boilerAnswer := rfl
  simp [handOffKnown, mkFrame, hk, h]

theorem boilerAnswer_considered {i : NodeIx} {u : State} {w : Window} {answer st fh fl : Byte}
    {b : BoilerStatus} (hp : (u.node i).presence = .present) (hw : u.pls.window = some w)
    (hj : w.judged = false) (hb : rdStatus st = some b) :
    boilerAnswer i [u.pls.question, answer, st, fh, fl] u
      = judge w (u.nodeCfg i).address answer b (rdT16 fh fl) u := by
  simp [boilerAnswer, hw, hp, hb, hj]

/-- An answer that changes anything came to the outstanding question in an unjudged window, with a status,
from a node not in MISMATCH. -/
theorem boilerAnswer_idle_or_considered (i : NodeIx) (u : State) (echo answer st fh fl : Byte) :
    boilerAnswer i [echo, answer, st, fh, fl] u = u
      ∨ ∃ w b, u.pls.window = some w ∧ w.judged = false ∧ echo = u.pls.question
        ∧ rdStatus st = some b ∧ ∀ c, (u.node i).presence ≠ .mismatch c := by
  unfold boilerAnswer
  split
  next => exact .inl rfl
  next => exact .inl rfl
  next w _ _ _ _ _ hw hpayload hp =>
    cases hpayload
    split
    next => exact .inl rfl
    next b hb =>
      split
      next hc =>
        obtain ⟨hecho, hjudged⟩ := hc
        exact .inr ⟨w, b, hw, hjudged, hecho, hb, hp⟩
      next => exact .inl rfl
  next => exact .inl rfl

theorem boilerAnswer_ignored {i : NodeIx} {u : State} {echo answer st fh fl : Byte}
    (h : u.pls.window.all (fun w => w.judged) = true ∨ echo ≠ u.pls.question ∨ rdStatus st = none
      ∨ (u.node i).presence = .mismatch .role) :
    boilerAnswer i [echo, answer, st, fh, fl] u = u := by
  rcases boilerAnswer_idle_or_considered i u echo answer st fh fl with
    hidle | ⟨w, b, hw, hjudged, hecho, hb, hp⟩
  · exact hidle
  · simp [hw, hjudged, hecho, hb, hp] at h

/-! ### The judgement (R126) -/

/-- The window is marked as judged. -/
def markJudged (w : Window) (u : State) : State :=
  u.setPls { u.pls with window := some { w with judged := true } }

theorem judge_good {w : Window} {answer : Byte} {u : State} (a : Byte) (b : BoilerStatus) (flow : T16)
    (h : w.part = .openPart ∧ answer = expectedAnswer u.pls.question w.flow w.release) :
    judge w a answer b flow u = goodAnswer a b flow (markJudged w u) := by
  obtain ⟨hopen, hexpected⟩ := h
  simp [judge, markJudged, hopen, hexpected]

theorem judge_fault {w : Window} {answer : Byte} {u : State} (a : Byte) (b : BoilerStatus) (flow : T16)
    (h : ¬(w.part = .openPart ∧ answer = expectedAnswer u.pls.question w.flow w.release)) :
    judge w a answer b flow u
      = charge (if w.part = .openPart then .bad else .early) (markJudged w u) := by
  cases hpart : w.part with
  | closedPart => simp [judge, markJudged, hpart]
  | openPart =>
    have hwrong : answer ≠ expectedAnswer u.pls.question w.flow w.release := fun k => h ⟨hpart, k⟩
    simp [judge, markJudged, hpart, hwrong]

/-! ### A GOOD answer (R128, R130, R131) -/

theorem movedByGood_plantState (recovery : Nat) (p : Supervisor) :
    if p.plantState = .sync ∨ (p.plantState = .fault ∧ recovery ≤ p.good) then
      (movedByGood recovery p).plantState = .ok ∧ (movedByGood recovery p).errors = 0
    else (movedByGood recovery p).plantState = p.plantState
      ∧ (movedByGood recovery p).errors = p.errors := by
  cases hs : p.plantState with
  | sync => simp [movedByGood, hs]
  | ok => simp [movedByGood, hs]
  | noBoiler => simp [movedByGood, hs]
  | fault => by_cases hr : recovery ≤ p.good <;> simp [movedByGood, hs, hr]

/-- R130 moves the plant state and the error count alone. -/
theorem movedByGood_rest (recovery : Nat) (p : Supervisor) :
    movedByGood recovery p
      = { p with plantState := (movedByGood recovery p).plantState
                 errors := (movedByGood recovery p).errors } := by
  unfold movedByGood
  split
  · rfl
  · split <;> rfl
  · rfl
  · rfl

/-- The supervisor's fields after a GOOD answer. -/
def goodStanding (b : BoilerStatus) (flow : T16) (s : State) : Supervisor :=
  movedByGood s.work.plant.recoveryCount (goodCounts s.work.plant.polynomial b flow s.pls)

theorem goodAnswer_pls (a : Byte) (b : BoilerStatus) (flow : T16) (s : State) :
    (goodAnswer a b flow s).pls = goodStanding b flow s := by
  simp only [goodAnswer, apply_ite State.pls, addEvent_pls, setLink_pls, ite_self, goodStanding]

theorem goodAnswer_flag (a : Byte) (b : BoilerStatus) (flow : T16) (s : State) :
    FlagRefreshed s (goodAnswer a b flow s) := by
  unfold FlagRefreshed
  rw [goodAnswer_pls]
  simp only [goodAnswer, apply_ite State.pco, addEvent_pco, ite_self]
  rfl

/-- R128 and R130 in one: the counts, the next question, what the boiler reported, and the plant state. -/
theorem goodStanding_spec (b : BoilerStatus) (flow : T16) (s : State) :
    let p := goodStanding b flow s
    p.window = s.pls.window ∧ p.good = min (s.pls.good + 1) 15
      ∧ p.question = stepQuestion s.work.plant.polynomial s.pls.question
      ∧ p.status = some b ∧ p.actualFlow = some (clamp (-640) 1600 flow)
      ∧ (if s.pls.plantState = .sync
            ∨ (s.pls.plantState = .fault ∧ s.work.plant.recoveryCount ≤ p.good) then
          p.plantState = .ok ∧ p.errors = 0
        else p.plantState = s.pls.plantState ∧ p.errors = s.pls.errors - 1) := by
  have hrest : goodStanding b flow s = _ := movedByGood_rest s.work.plant.recoveryCount
    (goodCounts s.work.plant.polynomial b flow s.pls)
  have hgood : (goodStanding b flow s).good = min (s.pls.good + 1) 15 := by rw [hrest]; rfl
  refine ⟨by rw [hrest]; rfl, hgood, by rw [hrest]; rfl, by rw [hrest]; rfl, by rw [hrest]; rfl, ?_⟩
  rw [hgood]
  exact movedByGood_plantState s.work.plant.recoveryCount
    (goodCounts s.work.plant.polynomial b flow s.pls)

/-- What an event that may be raised makes of the responder depends on the responder and the clock alone. -/
theorem addEvent_if_congr (c : Prop) [Decidable c] (e : EventBody) {s t : State} (hmrs : t.mrs = s.mrs)
    (hclock : t.clock = s.clock) :
    (if c then addEvent e t else t).mrs = (if c then addEvent e s else s).mrs
      ∧ (if c then addEvent e t else t).clock = (if c then addEvent e s else s).clock := by
  split
  · have hkept : ∀ u, (addEvent e u).clock = u.clock := fun u => addEvent_keeps e u .clock (by simp)
    exact ⟨addEvent_mrs_congr e hmrs hclock, by rw [hkept, hkept, hclock]⟩
  · exact ⟨hmrs, hclock⟩

/-- The events of a GOOD answer, queued with those of any state that agrees on responder and clock (R131). -/
theorem goodAnswer_mrs (a : Byte) (b : BoilerStatus) (flow : T16) {s t : State} (hmrs : t.mrs = s.mrs)
    (hclock : t.clock = s.clock) :
    (goodAnswer a b flow t).mrs
      = (let e := if b = .lockout ∧ t.pls.status ≠ some .lockout then
            addEvent (.boilerLockout a t.pls.status) s else s
        if t.pls.plantState = .fault ∧ (goodAnswer a b flow t).pls.plantState = .ok then
          addEvent (.plantOk (goodAnswer a b flow t).pls.good) e else e).mrs := by
  obtain ⟨-, hgood, -⟩ := goodStanding_spec b flow t
  rw [goodAnswer_pls, hgood]
  obtain ⟨hmrs', hclock'⟩ := addEvent_if_congr (b = .lockout ∧ t.pls.status ≠ some .lockout)
    (.boilerLockout a t.pls.status) (t := setLink (goodStanding b flow t) t) (s := s) hmrs hclock
  exact (addEvent_if_congr _ _ hmrs' hclock').1

/-! ### What a judgement does (R126, R128 to R131) -/

theorem judge_window (w : Window) (a answer : Byte) (b : BoilerStatus) (flow : T16) (u : State) :
    (judge w a answer b flow u).pls.window = some { w with judged := true } := by
  by_cases h : w.part = .openPart ∧ answer = expectedAnswer u.pls.question w.flow w.release
  · rw [judge_good a b flow h, goodAnswer_pls, (goodStanding_spec b flow _).1]
    rfl
  · rw [judge_fault a b flow h, charge_window]
    rfl

theorem judge_flag (w : Window) (a answer : Byte) (b : BoilerStatus) (flow : T16) (u : State) :
    FlagRefreshed u (judge w a answer b flow u) := by
  by_cases h : w.part = .openPart ∧ answer = expectedAnswer u.pls.question w.flow w.release
  · rw [judge_good a b flow h]
    exact goodAnswer_flag a b flow (markJudged w u)
  · rw [judge_fault a b flow h]
    exact (charge_spec _ (markJudged w u)).2

theorem flagRefreshed_of_pco {s u t : State} (hpco : u.pco = s.pco) (h : FlagRefreshed u t) :
    FlagRefreshed s t := by
  unfold FlagRefreshed at h ⊢
  rw [h, hpco]

theorem judge_good_effect {w : Window} {answer : Byte} {s u : State} (a : Byte) (b : BoilerStatus)
    (flow : T16) (hmrs : u.mrs = s.mrs) (hclock : u.clock = s.clock)
    (h : w.part = .openPart ∧ answer = expectedAnswer u.pls.question w.flow w.release) :
    let t := judge w a answer b flow u
    t.pls.good = min (u.pls.good + 1) 15
      ∧ t.pls.question = stepQuestion u.work.plant.polynomial u.pls.question
      ∧ t.pls.status = some b ∧ t.pls.actualFlow = some (clamp (-640) 1600 flow)
      ∧ (if u.pls.plantState = .sync
            ∨ (u.pls.plantState = .fault ∧ u.work.plant.recoveryCount ≤ t.pls.good) then
          t.pls.plantState = .ok ∧ t.pls.errors = 0
        else t.pls.plantState = u.pls.plantState ∧ t.pls.errors = u.pls.errors - 1)
      ∧ t.mrs
        = (let e := if b = .lockout ∧ u.pls.status ≠ some .lockout then
              addEvent (.boilerLockout a u.pls.status) s else s
          if u.pls.plantState = .fault ∧ t.pls.plantState = .ok then
            addEvent (.plantOk t.pls.good) e else e).mrs := by
  intro t
  have ht : t = goodAnswer a b flow (markJudged w u) := judge_good a b flow h
  have hmrs := goodAnswer_mrs a b flow (t := markJudged w u) hmrs hclock
  rw [← ht] at hmrs
  obtain ⟨-, hgood, hquestion, hstatus, hflow, hstate⟩ := goodStanding_spec b flow (markJudged w u)
  rw [← goodAnswer_pls a, ← ht] at hgood hquestion hstatus hflow hstate
  exact ⟨hgood, hquestion, hstatus, hflow, hstate, hmrs⟩

theorem judge_fault_effect {w : Window} {answer : Byte} {s u : State} (a : Byte) (b : BoilerStatus)
    (flow : T16) (hmrs : u.mrs = s.mrs) (hclock : u.clock = s.clock)
    (h : ¬(w.part = .openPart ∧ answer = expectedAnswer u.pls.question w.flow w.release)) :
    let t := judge w a answer b flow u
    ChargedFrom u.work.plant.faultThreshold u.pls t.pls
      ∧ t.mrs = (if u.pls.plantState = .ok ∧ t.pls.plantState = .fault then
          addEvent (.plantFault (if w.part = .openPart then .bad else .early)) s else s).mrs := by
  intro t
  have ht : t = charge (if w.part = .openPart then .bad else .early) (markJudged w u) :=
    judge_fault a b flow h
  rw [ht]
  exact ⟨(charge_spec _ (markJudged w u)).1, charge_mrs _ (t := markJudged w u) hmrs hclock⟩

/-! ### The statement -/

theorem exec_boilerAnswer {x : Segment} {dst src : Byte} {payload : List Byte} {s : State} {i : NodeIx}
    (h : Admitted x (mkFrame dst src 0x15#8 payload) s) (hi : findNode s src = some i)
    (hrole : (s.nodeCfg i).role = .boilerIf) :
    exec (.boilerAnswer x dst src payload) s
      = .next (boilerAnswer i payload (atHandOff x (mkFrame dst src 0x15#8 payload) s)) := by
  show Host.Outcome.next (receive x (mkFrame dst src 0x15#8 payload) s) = _
  rw [receive_admitted_known h hi, handOffKnown_boilerAnswer (by rw [atHandOff_nodeCfg, hrole])]

/-- An answer that is not from the boiler interface, or that is not considered, is only forwarded (R125,
R143). -/
theorem exec_boilerAnswer_ignored {x : Segment} {dst src echo answer st fh fl : Byte} {s : State}
    (h : Admitted x (mkFrame dst src 0x15#8 [echo, answer, st, fh, fl]) s)
    (hother : s.pls.window.all (fun w => w.judged) = true ∨ echo ≠ s.pls.question ∨ rdStatus st = none
      ∨ ∀ i, findNode s src = some i → (s.nodeCfg i).role ≠ .boilerIf
        ∨ ((afterSource x (mkFrame dst src 0x15#8 [echo, answer, st, fh, fl]) s).node i).presence
          = .mismatch .role) :
    exec (.boilerAnswer x dst src [echo, answer, st, fh, fl]) s
      = .next (atHandOff x (mkFrame dst src 0x15#8 [echo, answer, st, fh, fl]) s) := by
  cases hi : findNode s src with
  | none => exact congrArg Host.Outcome.next (receive_admitted_unknown h hi)
  | some i =>
    by_cases hrole : (s.nodeCfg i).role = .boilerIf
    · rw [exec_boilerAnswer h hi hrole, boilerAnswer_ignored]
      rw [atHandOff_pls, atHandOff_presence]
      simpa [hi, hrole] using hother
    · show Host.Outcome.next (receive x _ s) = _
      rw [← atHandOff_nodeCfg x] at hrole
      rw [receive_admitted_known h hi, handOffKnown_boilerAnswer_other hrole]

/-- A considered answer is judged on the standing that the hand-off finds (R125, R126). -/
theorem exec_boilerAnswer_considered {x : Segment} {dst src answer st fh fl : Byte} {s : State}
    {i : NodeIx} {w : Window} {b : BoilerStatus}
    (h : Admitted x (mkFrame dst src 0x15#8 [s.pls.question, answer, st, fh, fl]) s)
    (hi : findNode s src = some i) (hrole : (s.nodeCfg i).role = .boilerIf)
    (hp : ((afterSource x (mkFrame dst src 0x15#8 [s.pls.question, answer, st, fh, fl]) s).node i).presence
      = .present)
    (hw : s.pls.window = some w) (hj : w.judged = false) (hb : rdStatus st = some b) :
    exec (.boilerAnswer x dst src [s.pls.question, answer, st, fh, fl]) s
      = .next (judge w src answer b (rdT16 fh fl)
        (atHandOff x (mkFrame dst src 0x15#8 [s.pls.question, answer, st, fh, fl]) s)) := by
  have hpls := atHandOff_pls x (mkFrame dst src 0x15#8 [s.pls.question, answer, st, fh, fl]) s
  rw [← atHandOff_presence] at hp
  rw [← hpls] at hw
  have hjudge := boilerAnswer_considered (answer := answer) (fh := fh) (fl := fl) hp hw hj hb
  rw [hpls, atHandOff_nodeCfg, (findNode_some hi).2] at hjudge
  rw [exec_boilerAnswer h hi hrole, hjudge]

/-- Settles O26: the judgement is a GOOD answer or a charge, on the state the hand-off finds. -/
theorem boilerAnswerJudged : Obligations.BoilerAnswerJudged := by
  refine ⟨?judged, ?ignored⟩
  case ignored =>
    intro x dst src echo answer st fh fl s hadmitted f h hother
    exact ⟨_, exec_boilerAnswer_ignored hadmitted hother, atHandOff_copied x f s, atHandOff_keeps x f s⟩
  case judged =>
    intro x dst src answer st fh fl s hadmitted i hi f h hrole hp w hw hj b hb
    have hexec := exec_boilerAnswer_considered hadmitted hi hrole hp hw hj hb
    have hmrs := atHandOff_mrs x f s
    have hclock := atHandOff_clock x f s
    have hpls := atHandOff_pls x f s
    have hwork := atHandOff_work x f s
    have hkeeps := judge_keeps w src answer b (rdT16 fh fl) (atHandOff x f s)
    have hflag := flagRefreshed_of_pco (atHandOff_pco x f s)
      (judge_flag w src answer b (rdT16 fh fl) (atHandOff x f s))
    refine ⟨_, hexec, copied_of_keeps (atHandOff_copied x f s) hkeeps (by simp) (by simp),
      judge_window .., ?_, hflag, ((atHandOff_keeps x f s).mono (List.subset_append_right _ _)).trans (hkeeps.mono (by simp))⟩
    split
    next hgood =>
      have heffect := judge_good_effect src b (rdT16 fh fl) hmrs hclock (hpls ▸ hgood)
      rw [hpls, hwork] at heffect
      exact heffect
    next hfault =>
      have heffect := judge_fault_effect src b (rdT16 fh fl) hmrs hclock (hpls ▸ hfault)
      rw [hpls, hwork] at heffect
      exact heffect

end Sys2Proof.Machine.AnswerJudgement
end
